-- ==== Sys2Proof/Word.lean ====
section
/-! DEFINITION. The units the spec counts in: bytes, line levels, the two planes. -/

namespace Sys2Proof

/-- One byte: every framebuffer, wire, LUT and parameter value is one (20_memory.md R54). -/
abbrev Byte := BitVec 8

/-- The level of one digital line (00_scope.md R11, R12: 0 or 1). -/
inductive Level where
  | low
  | high
deriving DecidableEq, Repr, Inhabited

/-- The level as the bit the spec writes for it. -/
def Level.bit : Level → BitVec 1
  | .low => 0#1
  | .high => 1#1

/-- `1 - l` (40_command_protocol.md R111). -/
def Level.flip : Level → Level
  | .low => .high
  | .high => .low

/-- The two framebuffer planes: `B` is `fb_black`, `R` is `fb_red` (20_memory.md R51). -/
inductive Plane where
  | black
  | red
deriving DecidableEq, Repr

end Sys2Proof
end

