-- ==== Sys2Proof/Syntax.lean ====
section
/-! DEFINITION. Every piece of syntax of the spec: the instructions of the opcode table, the two encoded
formats, phases, micro-actions, trace events, host responses and host actions. -/

namespace Sys2Proof

/-- The panel command opcode set by name, in the order of the opcode map (30_encoding.md R88). -/
inductive Command where
  | psr | pwr | pof | pon | btst | dslp | dtm1 | drf | dtm2
  | lutVcom0 | lutW | lutB | lutG1 | lutG2 | lutVcom1 | lutRed0 | lutRed1
  | pll | cdi | tres | vdcs
deriving DecidableEq, Repr

/-- The twenty-one rows of the opcode map (30_encoding.md R88). -/
def Command.all : List Command :=
  [.psr, .pwr, .pof, .pon, .btst, .dslp, .dtm1, .drf, .dtm2,
   .lutVcom0, .lutW, .lutB, .lutG1, .lutG2, .lutVcom1, .lutRed0, .lutRed1,
   .pll, .cdi, .tres, .vdcs]

/-- The instructions: one constructor per row of spec/opcode_table.json. The first five are the request
codes of HOSTOP3 (30_encoding.md R81); the others are the units of WIRE9 (R83): the twenty-one commands
of R88 and the data unit, whose operand is any byte (41_panel_commands.md R151). -/
inductive Instr where
  | init | update | refresh | blank | busy
  | psr | pwr | pof | pon | btst | dslp | dtm1 | drf | dtm2
  | lutVcom0 | lutW | lutB | lutG1 | lutG2 | lutVcom1 | lutRed0 | lutRed1
  | pll | cdi | tres | vdcs
  | data (b : Byte)
deriving DecidableEq, Repr

/-- The WIRE9 instruction of a command (30_encoding.md R84, R88). -/
def Instr.ofCommand : Command → Instr
  | .psr => .psr | .pwr => .pwr | .pof => .pof | .pon => .pon | .btst => .btst | .dslp => .dslp
  | .dtm1 => .dtm1 | .drf => .drf | .dtm2 => .dtm2
  | .lutVcom0 => .lutVcom0 | .lutW => .lutW | .lutB => .lutB | .lutG1 => .lutG1 | .lutG2 => .lutG2
  | .lutVcom1 => .lutVcom1 | .lutRed0 => .lutRed0 | .lutRed1 => .lutRed1
  | .pll => .pll | .cdi => .cdi | .tres => .tres | .vdcs => .vdcs

/-- The two formats (30_encoding.md R80). The port a unit arrives on tells which one it has, so a coded
unit carries its format: a 3-bit code of the request port or a 9-bit unit of the panel wire. -/
inductive Code where
  | hostop3 (op : BitVec 3)
  | wire9 (unit : BitVec 9)
deriving DecidableEq, Repr

/-- The nine phases, in the document's order (10_state.md R24). -/
inductive Phase where
  | uninitialized | resetting | initializing | ready | transmittingBlack | transmittingRed
  | refreshing | waitingBusy | sleeping
deriving DecidableEq, Repr

/-- The operations that can be in flight (10_state.md R25); BUSY never is. -/
inductive Op where
  | init | update | refresh | blank
deriving DecidableEq, Repr

/-- The micro-actions, complete (42_sequencer.md R170). `cmd` names the command whose opcode byte it
sends; the programs pass no other byte (30_encoding.md R89). Log entry 6. -/
inductive MicroAction where
  | cfg
  | rstl (l : Level)
  | cmd (c : Command)
  | dat (b : Byte)
  | wait (us : Nat)
  | feed
  | waitBusy
  | clearDirty
deriving DecidableEq, Repr

/-- A program: micro-actions, each tagged with its phase (42_sequencer.md R171). -/
abbrev Prog := List (Phase × MicroAction)

/-- The output events (00_scope.md R12): `C(b)`, `D(b)`, `RST(l)`, `W(t)`, `F`, `S(v)`, `CFG`. -/
inductive Event where
  | cmd (b : Byte)
  | data (b : Byte)
  | rst (l : Level)
  | wait (us : Nat)
  | feed
  | sample (l : Level)
  | cfg
deriving DecidableEq, Repr

/-- The responses to the host (10_state.md R38): `DONE(op)` and `BUSYR(v)`. -/
inductive Response where
  | done (o : Op)
  | busyr (v : Bool)
deriving DecidableEq, Repr

/-- The plane a host action names: `B`, `R`, or something that is neither (20_memory.md R55). -/
inductive PlaneSel where
  | plane (p : Plane)
  | other (n : Nat)
deriving DecidableEq, Repr

/-- The host's actions on the block, complete (44_host_operations.md R253), and a write to the read-only
status word (10_state.md R35). A request carries any of the eight codes of the request port. -/
inductive HostAction where
  | request (op : BitVec 3)
  | fbr (p : PlaneSel) (i : Nat)
  | fbw (p : PlaneSel) (i : Nat) (v : Byte)
  | dirtyWrite (v : Bool)
  | dirtyRead
  | status
  | statusWrite (v : Byte)
  | readResp
deriving DecidableEq, Repr

/-- Whose turn it is: the host takes one action, or passes and the block moves (60_exceptions.md R281:
any enabled agent may step next). Log entry 1. -/
inductive HostTurn where
  | act (a : HostAction)
  | pass
deriving DecidableEq, Repr

/-- What a host read returns (44_host_operations.md R253). Log entry 2. -/
inductive HostValue where
  | byte (v : Byte)
  | dirty (v : Bool)
  | status (v : Byte)
  | responses (rs : List Response)
deriving DecidableEq, Repr

end Sys2Proof
end

