-- ==== Sys2Proof/Config.lean ====
section
/-! DEFINITION. What one build of the block fixes (00_scope.md R8, R9): the sizes and delays the spec
gives, and the parameters it leaves OPEN, which are opaque constants: nothing can evaluate them, so a
claim holds for every value of them. -/

namespace Sys2Proof

/-- `WIDTH`, pixels per row (00_scope.md R8). -/
def Config.width : Nat := 200

/-- `HEIGHT`, rows (00_scope.md R8). -/
def Config.height : Nat := 200

/-- `N` (`BUFFER_SIZE`), bytes per plane (00_scope.md R8, R9). -/
def Config.planeBytes : Nat := Config.width * Config.height / 8

/-- `T_RST_LO`, in microseconds as every duration here (00_scope.md R8). -/
def Config.tRstLo : Nat := 200000

/-- `T_RST_HI` (00_scope.md R8). -/
def Config.tRstHi : Nat := 200000

/-- `T_TX`, the settle delay (00_scope.md R8). -/
def Config.tTx : Nat := 2000

/-- `T_HOLD`, one sleep hold (00_scope.md R8). -/
def Config.tHold : Nat := 500000

/-- The opcode bytes the source does not give, and `DC_CMD_LEVEL` (00_scope.md R8, 30_encoding.md R83,
R88). -/
structure OpcodeMap where
  pwr : Byte
  pof : Byte
  btst : Byte
  dtm1 : Byte
  dtm2 : Byte
  lutVcom0 : Byte
  lutW : Byte
  lutB : Byte
  lutG1 : Byte
  lutG2 : Byte
  lutVcom1 : Byte
  lutRed0 : Byte
  lutRed1 : Byte
  pll : Byte
  cdi : Byte
  tres : Byte
  vdcs : Byte
  dcCmd : Level
deriving DecidableEq, Repr

/-- The opcode byte of a command: the four values of the source, and the parameters (30_encoding.md
R88). -/
def OpcodeMap.opcode (m : OpcodeMap) : Command → Byte
  | .psr => 0x00 | .pon => 0x04 | .drf => 0x12 | .dslp => 0x07
  | .pwr => m.pwr | .pof => m.pof | .btst => m.btst | .dtm1 => m.dtm1 | .dtm2 => m.dtm2
  | .lutVcom0 => m.lutVcom0 | .lutW => m.lutW | .lutB => m.lutB | .lutG1 => m.lutG1
  | .lutG2 => m.lutG2 | .lutVcom1 => m.lutVcom1 | .lutRed0 => m.lutRed0 | .lutRed1 => m.lutRed1
  | .pll => m.pll | .cdi => m.cdi | .tres => m.tres | .vdcs => m.vdcs

/-- The twenty-one opcode bytes are pairwise distinct (00_scope.md R9). -/
def OpcodeMap.distinct (m : OpcodeMap) : Bool :=
  decide (Command.all.map m.opcode).Nodup

/-- The values under which spec/opcode_table.json is written (30_encoding.md R83, R88). They are the
general-knowledge defaults G1 and G2 of 93_implementation_defined.md, on which no proof about the machine
may rest: only `decodeTableWord`, which reads the table's own numbering, uses them. Log entry 7. -/
def OpcodeMap.table : OpcodeMap where
  pwr := 0x01
  pof := 0x02
  btst := 0x06
  dtm1 := 0x10
  dtm2 := 0x13
  lutVcom0 := 0x20
  lutW := 0x21
  lutB := 0x22
  lutG1 := 0x23
  lutG2 := 0x24
  lutVcom1 := 0x25
  lutRed0 := 0x26
  lutRed1 := 0x27
  pll := 0x30
  cdi := 0x50
  tres := 0x61
  vdcs := 0x82
  dcCmd := .low

/-- The OPEN parameters of 00_scope.md R8, with the one constraint R9 puts on them. The field values
written here only show that the type has an element; the machine never sees them. -/
structure Params where
  /-- `OPC_*` and `DC_CMD_LEVEL`. -/
  opcodes : OpcodeMap := OpcodeMap.table
  /-- `PWR_INIT[0..3]`. -/
  pwrInit : Fin 4 → Byte
  /-- `BTST_V[0..2]`. -/
  btstV : Fin 3 → Byte
  /-- `PSR_V`. -/
  psrV : Byte
  /-- `CDI_INIT`. -/
  cdiInit : Byte
  /-- `PLL_V`. -/
  pllV : Byte
  /-- `TRES_V[0..2]`. -/
  tresV : Fin 3 → Byte
  /-- `VDCS_INIT`. -/
  vdcsInit : Byte
  /-- `CDI_SLEEP`. -/
  cdiSleep : Byte
  /-- `VDCS_SLEEP`. -/
  vdcsSleep : Byte
  /-- `LUT[k][j]`, k in 0..7 and j in 0..14 (10_state.md R28). -/
  lut : Fin 8 → Fin 15 → Byte
  /-- `T_POLL`. -/
  tPoll : Nat
  /-- `BLANK_WAKES`. -/
  blankWakes : Bool
  /-- Opcode bytes are pairwise distinct (00_scope.md R9). -/
  distinct : opcodes.distinct = true := by decide
deriving Inhabited

/-- The parameters of this block, none of whose values the source gives (00_scope.md R8: "the model takes
it as an argument"). Opaque: log entry 7. -/
opaque Config.params : Params

/-- The free value of the BUSY line: the level the environment shows at the n-th sample, where the state
says nothing of it (10_state.md R33: a draw from the environment). Opaque: log entry 3. -/
opaque Config.busyLevel : Nat → Level

/-- The opcode byte this block sends for a command (30_encoding.md R88). -/
def Config.opcode (c : Command) : Byte := Config.params.opcodes.opcode c

/-- `DC_CMD_LEVEL` (30_encoding.md R83). -/
def Config.dcCmd : Level := Config.params.opcodes.dcCmd

end Sys2Proof
end

