-- ==== Sys2Proof/WellFormed.lean ====
section
/-! DEFINITION. The checks on syntax. An instruction has no ill-formed term: a HOSTOP3 code has no operand
(30_encoding.md R81) and a data unit takes any byte (41_panel_commands.md R151). What can be ill-formed
is a host action, a micro-program and an opcode map. -/

namespace Sys2Proof

/-- An opcode map is usable when its bytes are pairwise distinct (00_scope.md R9). -/
def OpcodeMap.wellFormed (m : OpcodeMap) : Bool := m.distinct

/-- A framebuffer address exists: the plane is B or R and the index is below N (20_memory.md R51). -/
def validAddress (p : PlaneSel) (i : Nat) : Bool :=
  match p with
  | .plane _ => decide (i < Config.planeBytes)
  | .other _ => false

/-- The reserved codes of the request port (30_encoding.md R82). -/
def reservedCode (q : BitVec 3) : Bool := q == 0 || q == 6 || q == 7

/-- A host action has a meaning: its request code is not reserved and its framebuffer address exists
(44_host_operations.md R253). -/
def HostAction.wellFormed : HostAction → Bool
  | .request q => !reservedCode q
  | .fbr p i => validAddress p i
  | .fbw p i _ => validAddress p i
  | .dirtyWrite _ => true
  | .dirtyRead => true
  | .status => true
  | .statusWrite _ => true
  | .readResp => true

/-- The phases held only while an operation is in flight (42_sequencer.md R193). -/
def Phase.inFlight : Phase → Bool
  | .uninitialized => false
  | .ready => false
  | .resetting => true
  | .initializing => true
  | .transmittingBlack => true
  | .transmittingRed => true
  | .refreshing => true
  | .waitingBusy => true
  | .sleeping => true

/-- A micro-action may stand in a program: deep-sleep never does (42_sequencer.md R196). -/
def MicroAction.emitted : MicroAction → Bool
  | .cmd c => c != .dslp
  | _ => true

/-- A program is well-formed: each tag is a phase of an operation in flight (42_sequencer.md R193) and no
step of it is deep-sleep (R196). -/
def Prog.wellFormed (p : Prog) : Bool :=
  p.all fun x => x.1.inFlight && x.2.emitted

end Sys2Proof
end

