-- ==== Sys2Proof/Decode.lean ====
section
/-! DEFINITION. The decoder of the two formats, total and rejecting by name, and after it the encoder
(30_encoding.md R80 to R91). Both take the opcode map, which is a parameter of the block (R88). -/

namespace Sys2Proof

/-- Why a coded unit decodes to no instruction. -/
inductive DecodeError where
  /-- A reserved code of the request port: 000, 110 or 111 (30_encoding.md R82). -/
  | reservedOp (op : BitVec 3)
  /-- A command unit whose byte is outside the opcode map (30_encoding.md R89). -/
  | unknownCommand (b : Byte)
deriving DecidableEq, Repr

/-- HOSTOP3 (30_encoding.md R81, R82). -/
def decodeHost (q : BitVec 3) : Except DecodeError Instr :=
  match q.toNat with
  | 1 => .ok .init
  | 2 => .ok .update
  | 3 => .ok .refresh
  | 4 => .ok .blank
  | 5 => .ok .busy
  | _ => .error (.reservedOp q)

/-- The row of the opcode map a command byte selects (30_encoding.md R84). -/
def decodeCommand (m : OpcodeMap) (b : Byte) : Option Command :=
  Command.all.find? fun c => m.opcode c == b

/-- WIRE9: the D/C bit is read first (30_encoding.md R83, R84). -/
def decodeWire (m : OpcodeMap) (u : BitVec 9) : Except DecodeError Instr :=
  if u.extractLsb' 8 1 = m.dcCmd.bit then
    match decodeCommand m (u.extractLsb' 0 8) with
    | some c => .ok (.ofCommand c)
    | none => .error (.unknownCommand (u.extractLsb' 0 8))
  else .ok (.data (u.extractLsb' 0 8))

/-- The decoder of any coded unit. -/
def decode (m : OpcodeMap) : Code → Except DecodeError Instr
  | .hostop3 q => decodeHost q
  | .wire9 u => decodeWire m u

/-- A WIRE9 unit from its two fields (30_encoding.md R83). -/
def wireUnit (dc : Level) (b : Byte) : BitVec 9 := dc.bit ++ b

/-- The command unit of a command (40_command_protocol.md R110). -/
def commandUnit (m : OpcodeMap) (c : Command) : BitVec 9 := wireUnit m.dcCmd (m.opcode c)

/-- The data unit of a byte (40_command_protocol.md R111). -/
def dataUnit (m : OpcodeMap) (b : Byte) : BitVec 9 := wireUnit m.dcCmd.flip b

/-- The encoder (30_encoding.md R81, R83, R88). -/
def encode (m : OpcodeMap) : Instr → Code
  | .init => .hostop3 1
  | .update => .hostop3 2
  | .refresh => .hostop3 3
  | .blank => .hostop3 4
  | .busy => .hostop3 5
  | .psr => .wire9 (commandUnit m .psr)
  | .pwr => .wire9 (commandUnit m .pwr)
  | .pof => .wire9 (commandUnit m .pof)
  | .pon => .wire9 (commandUnit m .pon)
  | .btst => .wire9 (commandUnit m .btst)
  | .dslp => .wire9 (commandUnit m .dslp)
  | .dtm1 => .wire9 (commandUnit m .dtm1)
  | .drf => .wire9 (commandUnit m .drf)
  | .dtm2 => .wire9 (commandUnit m .dtm2)
  | .lutVcom0 => .wire9 (commandUnit m .lutVcom0)
  | .lutW => .wire9 (commandUnit m .lutW)
  | .lutB => .wire9 (commandUnit m .lutB)
  | .lutG1 => .wire9 (commandUnit m .lutG1)
  | .lutG2 => .wire9 (commandUnit m .lutG2)
  | .lutVcom1 => .wire9 (commandUnit m .lutVcom1)
  | .lutRed0 => .wire9 (commandUnit m .lutRed0)
  | .lutRed1 => .wire9 (commandUnit m .lutRed1)
  | .pll => .wire9 (commandUnit m .pll)
  | .cdi => .wire9 (commandUnit m .cdi)
  | .tres => .wire9 (commandUnit m .tres)
  | .vdcs => .wire9 (commandUnit m .vdcs)
  | .data b => .wire9 (dataUnit m b)

/-- The instruction of an opcode-table word: a row of at most 8 bits is a HOSTOP3 code, a wider one a
WIRE9 unit, and the bits above the format's width are 0. The table is written for `OpcodeMap.table`
(30_encoding.md R83). Log entry 15. -/
def decodeTableWord (nbits w : Nat) : Option Instr :=
  if nbits ≤ 8 then
    if w < 8 then (decodeHost (BitVec.ofNat 3 w)).toOption else none
  else if w < 512 then (decodeWire OpcodeMap.table (BitVec.ofNat 9 w)).toOption
  else none

/-- The WIRE9 unit an event puts on the wire; the other events put none (30_encoding.md R83, R91). -/
def eventUnit (m : OpcodeMap) : Event → Option (BitVec 9)
  | .cmd b => some (wireUnit m.dcCmd b)
  | .data b => some (wireUnit m.dcCmd.flip b)
  | _ => none

/-- The command blocks of a wire stream, read from its last unit back: `(blocks, loose)` where `loose`
are the data units not yet owned by a command. A data unit belongs to the most recent command unit
before it (30_encoding.md R84). A unit outside the map ends the reading with its error. -/
def streamBlocks (m : OpcodeMap) :
    List (BitVec 9) → Except DecodeError (List (Instr × List Byte) × List Byte)
  | [] => .ok ([], [])
  | u :: us =>
    match streamBlocks m us with
    | .error e => .error e
    | .ok (blocks, loose) =>
      match decodeWire m u with
      | .error e => .error e
      | .ok (.data b) => .ok (blocks, b :: loose)
      | .ok i => .ok ((i, loose) :: blocks, [])

/-- The bits of a wire byte in the order they are sent, bit 7 first (20_memory.md R66). -/
def serialBits (b : Byte) : List Bool :=
  [b.getLsbD 7, b.getLsbD 6, b.getLsbD 5, b.getLsbD 4, b.getLsbD 3, b.getLsbD 2, b.getLsbD 1,
   b.getLsbD 0]

end Sys2Proof
end

