-- ==== Sys2Proof/Machine/State.lean ====
section
/-! DEFINITION. The state of the block (10_state.md R22), the two agents around it as plain data
(60_exceptions.md R281), the reasons a step can stop, and block reset (70_reset_and_hazards.md R300). -/

namespace Sys2Proof.Machine

/-- One framebuffer plane as sparse data: the listed bytes, addresses strictly rising, none of them equal
to what an unlisted address reads as (`Memory.wf` in Ops.lean). -/
abbrev Memory := List Host.Cell

/-- A line the block drives: `unknown` until it is first driven (10_state.md R30). -/
inductive Pin where
  | unknown
  | driven (l : Level)
deriving DecidableEq, Repr

/-- The fault reasons of 60_exceptions.md R271. A fault is recorded in `State.fault` by a step that
answers a next state; no step of this machine ends in `Outcome.fault`. -/
inductive Fault where
  /-- `HOST_RACE` (60_exceptions.md R273): recorded by a host FBW or DIRTY write while an operation is in
  flight. The write does not happen and the sequencer takes no further step. Safe: the spec's own mark. -/
  | hostRace
deriving DecidableEq, Repr

/-- Why a step can end with no meaning. The spec's own refusals (60_exceptions.md R272) are not these:
they set `State.refused` in a next state. -/
inductive Refusal where
  /-- An instruction that has no meaning in this model, by its mnemonic. Raised by `exec` alone. Safe. -/
  | notModelled (mnemonic : String)
  /-- Deep-sleep, raised by the DSLP unit: "EPD-SEQ never emits it" (41_panel_commands.md R135,
  93_implementation_defined.md U23). Safe: no program of the block contains it. -/
  | deepSleepNeverEmitted
deriving DecidableEq, Repr

/-- The state. The first thirteen fields are the tuple of 10_state.md R22; the last five are the model's
own and stand for the agents around the block. -/
structure State where
  /-- `fb_black` (R27). -/
  fbBlack : Memory
  /-- `fb_red` (R27). -/
  fbRed : Memory
  /-- `dirty` (R23). -/
  dirty : Bool
  /-- `phase` (R24). -/
  phase : Phase
  /-- `op` (R25). -/
  op : Option Op
  /-- `prog` (R26). -/
  prog : Prog
  /-- `rst` (R30). -/
  rst : Pin
  /-- `dc` (R30). -/
  dc : Pin
  /-- `trace` (R21), newest event first: `State.events` gives it in the spec's order. Log entry 5. -/
  trace : List Event
  /-- `resp` (R38), oldest first. -/
  resp : List Response
  /-- `pending` (44_host_operations.md R242). -/
  pending : Option (BitVec 3)
  /-- `fault` (R37). -/
  fault : Option Fault
  /-- `refused` (R37). -/
  refused : Bool
  /-- The host agent: its coming turns. Log entry 1. -/
  host : List HostTurn
  /-- The host agent: what its reads have returned, oldest first. Log entry 2. -/
  hostReads : List HostValue
  /-- The environment: the levels the BUSY line will show at the coming samples. Log entry 3. -/
  busyIn : List Level
  /-- The environment: how many samples have been drawn. Log entry 3. -/
  draws : Nat
  /-- The environment: how many more wire units the transport takes; `none` when it takes every one.
  Log entry 4. -/
  stallIn : Option Nat
deriving DecidableEq, Repr

/-- `trace` in the order of 10_state.md R21. -/
def State.events (s : State) : List Event := s.trace.reverse

/-- Block reset with the planes the caller seeds (70_reset_and_hazards.md R300). -/
def State.resetSeeded (black red : Memory) : State where
  fbBlack := black
  fbRed := red
  dirty := true
  phase := .uninitialized
  op := none
  prog := []
  rst := .unknown
  dc := .unknown
  trace := []
  resp := []
  pending := none
  fault := none
  refused := false
  host := []
  hostReads := []
  busyIn := []
  draws := 0
  stallIn := none

/-- Block reset, planes not seeded: all 0x00 (70_reset_and_hazards.md R300). Log entries 8 and 9. -/
def State.reset : State := State.resetSeeded [] []

end Sys2Proof.Machine
end

