-- ==== Sys2Proof/Machine/Ops.lean ====
section
/-! DEFINITION. The named operations over memory, wire, marks and sequencer that every meaning is made
of. -/

namespace Sys2Proof.Machine

/-! ### Framebuffer bytes -/

/-- What an unlisted address reads as: the reset contents (70_reset_and_hazards.md R300). -/
def Memory.unlisted : Byte := 0x00

/-- `MemRead` on one plane (00_scope.md R11). -/
def Memory.read : Memory → Nat → Byte
  | [], _ => Memory.unlisted
  | (a, v) :: m, i => if i = a then v else Memory.read m i

/-- `MemWrite` on one plane (00_scope.md R11), kept in canonical form: writing what an unlisted address
reads as removes the entry. -/
def Memory.write : Memory → Nat → Byte → Memory
  | [], i, v => if v = Memory.unlisted then [] else [(i, v)]
  | (a, w) :: m, i, v =>
    if i < a then
      if v = Memory.unlisted then (a, w) :: m else (i, v) :: (a, w) :: m
    else if i = a then
      if v = Memory.unlisted then m else (i, v) :: m
    else (a, w) :: Memory.write m i v

/-- Addresses strictly rise from a lower bound, exist, and hold a byte other than the unlisted one. -/
def Memory.wfFrom : Nat → Memory → Bool
  | _, [] => true
  | lo, (a, v) :: m =>
    decide (lo ≤ a) && decide (a < Config.planeBytes) && v != Memory.unlisted && Memory.wfFrom (a + 1) m

/-- The canonical form of a plane. -/
def Memory.wf (m : Memory) : Bool := Memory.wfFrom 0 m

/-- The `N` bytes of a plane in ascending index order (10_state.md R27, 20_memory.md R54). -/
def Memory.bytes (m : Memory) : List Byte := (List.range Config.planeBytes).map (Memory.read m)

/-- The plane a selector names (20_memory.md R51). -/
def State.plane (s : State) : Plane → Memory
  | .black => s.fbBlack
  | .red => s.fbRed

/-- One plane replaced. -/
def State.setPlane (s : State) (p : Plane) (m : Memory) : State :=
  match p with
  | .black => { s with fbBlack := m }
  | .red => { s with fbRed := m }

/-- The framebuffer address `(p, i)` exists, and the plane it is in (20_memory.md R51, R55). -/
def framebufferAt (p : PlaneSel) (i : Nat) : Option Plane :=
  match p with
  | .plane q => if i < Config.planeBytes then some q else none
  | .other _ => none

/-- The byte of a pixel in its plane (20_memory.md R52). -/
def pixelByte (x y : Nat) : Nat := (y * Config.width + x) / 8

/-- The bit of a pixel in its byte: MSB-first (20_memory.md R52). -/
def pixelBit (x y : Nat) : Nat := 7 - (y * Config.width + x) % 8

/-- `pixel(plane, x, y)` (20_memory.md R52). -/
def pixel (m : Memory) (x y : Nat) : Bool := (Memory.read m (pixelByte x y)).getLsbD (pixelBit x y)

/-! ### Trace and wire -/

/-- `Emit(ev)` (00_scope.md R11). -/
def State.emit (s : State) (e : Event) : State := { s with trace := e :: s.trace }

/-- The transport will report the previous transfer complete (40_command_protocol.md R112, R114). -/
def State.transportReady (s : State) : Bool := s.stallIn != some 0

/-- One wire unit: wait for the transport, drive D/C, emit (40_command_protocol.md R110, R111). A
transport that never completes leaves the block waiting (R114). -/
def State.sendUnit (s : State) (dc : Level) (e : Event) : State :=
  if s.transportReady then
    { s.emit e with dc := .driven dc, stallIn := s.stallIn.map (· - 1) }
  else s

/-- `send_command(c)` (40_command_protocol.md R110). The byte is any byte. -/
def State.sendCommand (s : State) (b : Byte) : State := s.sendUnit Config.dcCmd (.cmd b)

/-- `send_data(b)` (40_command_protocol.md R111). -/
def State.sendData (s : State) (b : Byte) : State := s.sendUnit Config.dcCmd.flip (.data b)

/-- `send_data_sequence(bs)` (40_command_protocol.md R113). -/
def State.sendDataSequence (s : State) (bs : List Byte) : State := bs.foldl State.sendData s

/-- `CMDSEQ(c, bs)` as calls of the command protocol (40_command_protocol.md R117). -/
def State.sendCommandSequence (s : State) (b : Byte) (bs : List Byte) : State :=
  (s.sendCommand b).sendDataSequence bs

/-- The level the BUSY line shows now (10_state.md R33): the environment's next level, or a free value
where the state says nothing of it. Log entry 3. -/
def State.busyLevel (s : State) : Level := s.busyIn.headD (Config.busyLevel s.draws)

/-- `Sample()` followed by `Emit(S(v))` (42_sequencer.md R176, 44_host_operations.md R250). -/
def State.sampled (s : State) : State :=
  { s.emit (.sample s.busyLevel) with busyIn := s.busyIn.tail, draws := s.draws + 1 }

/-! ### The marks of misuse, and their absence of a return (60_exceptions.md R271 to R279) -/

/-- The reasons of a refusal (60_exceptions.md R272). -/
inductive RefuseReason where
  | reservedOp
  | notInitialized
  | badIndex
deriving DecidableEq, Repr

/-- `raise Fault(reason)`: the first fault stays (60_exceptions.md R271). This is all the exception entry
the block has: nothing is saved and control goes nowhere (R278); nothing returns from it (R279). -/
def State.raiseFault (s : State) (r : Fault) : State :=
  { s with fault := match s.fault with
      | none => some r
      | some r0 => some r0 }

/-- `refuse(reason)`: only the mark is recorded, whatever the reason (60_exceptions.md R272). -/
def State.refuse (s : State) (_ : RefuseReason) : State := { s with refused := true }

/-! ### The sequencer -/

/-- Completion (42_sequencer.md R194). With no operation in flight, which no run reaches, no response is
given: log entry 12. -/
def State.complete (s : State) : State :=
  { s with
    resp := s.resp ++ (match s.op with
      | some o => [.done o]
      | none => [])
    op := none
    phase := .ready }

/-- The end of a sequencer step: COMPLETE when the program is empty, else the phase becomes the tag of
its head (42_sequencer.md R172). -/
def State.settle (s : State) : State :=
  match s.prog with
  | [] => s.complete
  | (ph, _) :: _ => { s with phase := ph }

/-- A request that waits (44_host_operations.md R242): at most one, and a newer one replaces it. -/
def State.hold (s : State) (q : BitVec 3) : State := { s with pending := some q }

/-- A program is started: the operation is in flight, the phase is the program's first tag, and the
request no longer waits (44_host_operations.md R241). -/
def State.start (s : State) (o : Op) (p : Prog) : State :=
  { s with
    op := some o
    prog := p
    phase := match p with
      | (ph, _) :: _ => ph
      | [] => s.phase
    pending := none }

/-- Admission, rows 2 to 4 of 44_host_operations.md R241; `accepted` is what the later rows do. -/
def State.admission (s : State) (q : BitVec 3) (needsInit : Bool) (accepted : State) : State :=
  if s.fault.isSome then s.hold q
  else if s.op.isSome then s.hold q
  else if needsInit && s.phase == .uninitialized then s.refuse .notInitialized
  else accepted

end Sys2Proof.Machine
end

