-- ==== Sys2Proof/Machine/Flags.lean ====
section
/-! DEFINITION. The flags (10_state.md R23, R34, R40) and the status word made of them (R35). -/

namespace Sys2Proof.Machine

/-- The block's own write of the dirty flag (10_state.md R23, 42_sequencer.md R170). -/
def State.clearDirty (s : State) : State := { s with dirty := false }

/-- The host's write of the dirty flag (44_host_operations.md R255). -/
def State.writeDirty (s : State) (v : Bool) : State := { s with dirty := v }

/-- The busy indication of a sampled level: electrical low is busy (10_state.md R34). -/
def busyIndication (l : Level) : Bool := l == .low

/-- The 4-bit code of a phase (10_state.md R24). -/
def phaseCode : Phase → BitVec 4
  | .uninitialized => 0
  | .resetting => 1
  | .initializing => 2
  | .ready => 3
  | .transmittingBlack => 4
  | .transmittingRed => 5
  | .refreshing => 6
  | .waitingBusy => 7
  | .sleeping => 8

/-- The block is idle (10_state.md R25). -/
def State.idle (s : State) : Bool := s.op == none

/-- The status word: REFUSED, FAULT, DIRTY, IDLE, PHASE from bit 7 down (10_state.md R35). -/
def State.statusWord (s : State) : Byte :=
  BitVec.ofBool s.refused ++ BitVec.ofBool s.fault.isSome ++ BitVec.ofBool s.dirty ++
  BitVec.ofBool s.idle ++ phaseCode s.phase

end Sys2Proof.Machine
end

