-- ==== Sys2Proof/Machine/Transcoder.lean ====
section
/-! DEFINITION. The framebuffer transcoder: the black plane's bit doubling, the red plane verbatim, the
blank streams (43_transcoder.md). -/

namespace Sys2Proof.Machine

/-- `SPREAD(n)`: bit j of the nibble becomes bits 2j+1 and 2j (43_transcoder.md R220). -/
def spread (n : BitVec 4) : Byte :=
  BitVec.ofBool (n.getLsbD 3) ++ BitVec.ofBool (n.getLsbD 3) ++
  BitVec.ofBool (n.getLsbD 2) ++ BitVec.ofBool (n.getLsbD 2) ++
  BitVec.ofBool (n.getLsbD 1) ++ BitVec.ofBool (n.getLsbD 1) ++
  BitVec.ofBool (n.getLsbD 0) ++ BitVec.ofBool (n.getLsbD 0)

/-- `EXPAND(b)` = `(hi, lo)`, the high nibble first (43_transcoder.md R220). -/
def expand (b : Byte) : Byte × Byte := (spread (b.extractLsb' 4 4), spread (b.extractLsb' 0 4))

/-- The two bytes of one plane byte in the order they are sent (43_transcoder.md R222). -/
def expandBytes (b : Byte) : List Byte := [(expand b).1, (expand b).2]

/-- `b` recovered from `(hi, lo)`: their odd bits (43_transcoder.md R228). -/
def collapse (hi lo : Byte) : Byte :=
  BitVec.ofBool (hi.getLsbD 7) ++ BitVec.ofBool (hi.getLsbD 5) ++
  BitVec.ofBool (hi.getLsbD 3) ++ BitVec.ofBool (hi.getLsbD 1) ++
  BitVec.ofBool (lo.getLsbD 7) ++ BitVec.ofBool (lo.getLsbD 5) ++
  BitVec.ofBool (lo.getLsbD 3) ++ BitVec.ofBool (lo.getLsbD 1)

/-- `BLACK_WIRE(fbB)` (43_transcoder.md R224). -/
def blackWire (fb : List Byte) : List Byte := fb.flatMap expandBytes

/-- `RED_WIRE(fbR)` (43_transcoder.md R225). -/
def redWire (fb : List Byte) : List Byte := fb

/-- BLANK's stream of `n` bytes 0xFF (43_transcoder.md R226). -/
def blankStream (n : Nat) : List Byte := List.replicate n 0xFF

end Sys2Proof.Machine
end

