-- ==== Sys2Proof/Machine/Operands.lean ====
section
/-! DEFINITION. The data blocks of the emission sites (30_encoding.md R86, R90, R91): where each data
byte of the wire comes from. -/

namespace Sys2Proof.Machine

/-- The emission sites, in program order (30_encoding.md R90). `lut k` is W9 to W16, LUT table k. -/
inductive Site where
  | w1 | w2 | w3 | w4 | w5 | w6 | w7 | w8
  | lut (k : Fin 8)
  | t1 | t2 | r1 | s1 | s2 | s3 | s4
deriving DecidableEq, Repr

/-- The command of LUT table k: `OPC_LUT[0..7]` in the order of the store (42_sequencer.md R179). -/
def lutCommand (k : Fin 8) : Command :=
  match k.val with
  | 0 => .lutVcom0
  | 1 => .lutW
  | 2 => .lutB
  | 3 => .lutG1
  | 4 => .lutG2
  | 5 => .lutVcom1
  | 6 => .lutRed0
  | _ => .lutRed1

/-- The command of a site (30_encoding.md R90). -/
def Site.command : Site → Command
  | .w1 => .pwr
  | .w2 => .btst
  | .w3 => .pon
  | .w4 => .psr
  | .w5 => .cdi
  | .w6 => .pll
  | .w7 => .tres
  | .w8 => .vdcs
  | .lut k => lutCommand k
  | .t1 => .dtm1
  | .t2 => .dtm2
  | .r1 => .drf
  | .s1 => .cdi
  | .s2 => .vdcs
  | .s3 => .pwr
  | .s4 => .pof

/-- The parameter block of a site (30_encoding.md R90); the two plane payloads are `blackWire` and
`redWire` or the blank streams, which the transmit template places itself (R91). -/
def Site.block (p : Params) : Site → List Byte
  | .w1 => List.ofFn p.pwrInit
  | .w2 => List.ofFn p.btstV
  | .w3 => []
  | .w4 => [p.psrV]
  | .w5 => [p.cdiInit]
  | .w6 => [p.pllV]
  | .w7 => List.ofFn p.tresV
  | .w8 => [p.vdcsInit]
  | .lut k => List.ofFn (p.lut k)
  | .t1 => []
  | .t2 => []
  | .r1 => []
  | .s1 => [p.cdiSleep]
  | .s2 => [p.vdcsSleep]
  | .s3 => [0x00, 0x00, 0x00, 0x00]
  | .s4 => []

end Sys2Proof.Machine
end

