-- ==== Sys2Proof/Machine/Programs.lean ====
section
/-! DEFINITION. The program templates in the document's order and the four operation programs
(42_sequencer.md R177 to R192). -/

namespace Sys2Proof.Machine

/-- `TAG(ph, xs)` (42_sequencer.md R171). -/
def tag (ph : Phase) (xs : List MicroAction) : Prog := xs.map fun a => (ph, a)

/-- `CMDSEQ(c, bs)` in a template (42_sequencer.md R171). -/
def cmdSeq (c : Command) (bs : List Byte) : List MicroAction := .cmd c :: bs.map .dat

/-- The command of a site and its parameter block (30_encoding.md R90). -/
def Site.emit (x : Site) : List MicroAction := cmdSeq x.command (x.block Config.params)

/-- `RESET_PULSE` (42_sequencer.md R177). -/
def resetPulse : Prog :=
  tag .resetting [.rstl .low, .wait Config.tRstLo, .rstl .high, .wait Config.tRstHi]

/-- `LUT_LOAD`: the eight tables in the order of the store (42_sequencer.md R179). -/
def lutLoad : List MicroAction :=
  ([0, 1, 2, 3, 4, 5, 6, 7] : List (Fin 8)).flatMap fun k => Site.emit (.lut k)

/-- `INIT_CMDS`, in the mandated order (42_sequencer.md R178, R181). -/
def initCmds : Prog :=
  tag .initializing <| List.flatten
    [Site.emit .w1, Site.emit .w2, Site.emit .w3, [.waitBusy], Site.emit .w4, Site.emit .w5,
     Site.emit .w6, Site.emit .w7, Site.emit .w8, lutLoad]

/-- `WAKE` (42_sequencer.md R178). -/
def wake : Prog := resetPulse ++ initCmds

/-- `TRANSMIT(bw, rw)`, with its four settle waits (42_sequencer.md R183, R184). -/
def transmit (bw rw : List Byte) : Prog :=
  tag .transmittingBlack
    (.cmd .dtm1 :: .wait Config.tTx :: (bw.map MicroAction.dat ++ [.wait Config.tTx])) ++
  tag .transmittingRed
    (.cmd .dtm2 :: .wait Config.tTx :: (rw.map MicroAction.dat ++ [.wait Config.tTx]))

/-- `REFRESH_SEQ` (42_sequencer.md R185). -/
def refreshSeq : Prog := tag .refreshing ([.waitBusy] ++ Site.emit .r1)

/-- `POST_WAIT` (42_sequencer.md R180). -/
def postWait : Prog := tag .waitingBusy [.waitBusy]

/-- One sleep hold: the wait, then the feed (42_sequencer.md R186). -/
def sleepHold : List MicroAction := [.wait Config.tHold, .feed]

/-- `SLEEP` (42_sequencer.md R186). -/
def sleep : Prog :=
  tag .sleeping <| List.flatten
    [Site.emit .s1, Site.emit .s2, Site.emit .s3, sleepHold, sleepHold, sleepHold, Site.emit .s4]

/-- `UPDATE_PROG(fbB, fbR)` (42_sequencer.md R189). -/
def updateProg (fbB fbR : List Byte) : Prog :=
  List.flatten
    [wake, transmit (blackWire fbB) (redWire fbR), refreshSeq, postWait, sleep,
     tag .sleeping [.clearDirty]]

/-- `INIT_PROG(fbB, fbR)` (42_sequencer.md R190). -/
def initProg (fbB fbR : List Byte) : Prog := tag .resetting [.cfg] ++ updateProg fbB fbR

/-- `REFRESH_PROG` (42_sequencer.md R191). -/
def refreshProg : Prog := refreshSeq

/-- `BLANK_PROG`, by `BLANK_WAKES` (42_sequencer.md R192). -/
def blankProg (wakes : Bool) : Prog :=
  List.flatten
    [if wakes then wake else [],
     transmit (blankStream (2 * Config.planeBytes)) (blankStream Config.planeBytes),
     refreshSeq, postWait, sleep]

end Sys2Proof.Machine
end

