-- ==== Sys2Proof/Machine/HostOps.lean ====
section
/-! DEFINITION. The five host operations, requested by a HOSTOP3 code (44_host_operations.md R241 to
R250). -/

namespace Sys2Proof.Machine

/-- INIT (44_host_operations.md R243): accepted when idle, in phase 0 or 3. -/
def execInit (s : State) : Host.Outcome State Fault Refusal :=
  .next (s.admission 1 false (s.start .init (initProg (Memory.bytes s.fbBlack) (Memory.bytes s.fbRed))))

/-- UPDATE (44_host_operations.md R244): whatever `dirty` is. -/
def execUpdate (s : State) : Host.Outcome State Fault Refusal :=
  .next (s.admission 2 true (s.start .update (updateProg (Memory.bytes s.fbBlack) (Memory.bytes s.fbRed))))

/-- REFRESH (44_host_operations.md R245). -/
def execRefresh (s : State) : Host.Outcome State Fault Refusal :=
  .next (s.admission 3 true (s.start .refresh refreshProg))

/-- BLANK (44_host_operations.md R246): neither plane is read. -/
def execBlank (s : State) : Host.Outcome State Fault Refusal :=
  .next (s.admission 4 true (s.start .blank (blankProg Config.params.blankWakes)))

/-- BUSY (44_host_operations.md R250): one sample, answered in the step that accepts it. -/
def execBusy (s : State) : Host.Outcome State Fault Refusal :=
  .next (s.admission 5 false
    { s.sampled with
      resp := s.resp ++ [.busyr (busyIndication s.busyLevel)]
      pending := none })

end Sys2Proof.Machine
end

