-- ==== Sys2Proof/Machine/PanelCommands.lean ====
section
/-! DEFINITION. The units of the panel wire. The block emits them; each meaning is the one unit the
command protocol puts on the wire (40_command_protocol.md R110, R111), and the data block that follows a
command is the DATA units its program places after it (30_encoding.md R90). -/

namespace Sys2Proof.Machine

/-- PSR, panel-setting (41_panel_commands.md R130). -/
def execPsr (s : State) : Host.Outcome State Fault Refusal :=
  .next (s.sendCommand (Config.opcode .psr))

/-- PWR, power-setting (41_panel_commands.md R131). -/
def execPwr (s : State) : Host.Outcome State Fault Refusal :=
  .next (s.sendCommand (Config.opcode .pwr))

/-- POF, power-off (41_panel_commands.md R132). -/
def execPof (s : State) : Host.Outcome State Fault Refusal :=
  .next (s.sendCommand (Config.opcode .pof))

/-- PON, power-on; the busy wait after it is the program's (41_panel_commands.md R133). -/
def execPon (s : State) : Host.Outcome State Fault Refusal :=
  .next (s.sendCommand (Config.opcode .pon))

/-- BTST, booster-soft-start (41_panel_commands.md R134). -/
def execBtst (s : State) : Host.Outcome State Fault Refusal :=
  .next (s.sendCommand (Config.opcode .btst))

/-- DSLP, deep-sleep: "Pseudocode: none. EPD-SEQ never emits it" (41_panel_commands.md R135), and "A model
has no step that emits `C(0x07)`" (93_implementation_defined.md U23). Log entry 13. -/
def execDslp (_ : State) : Host.Outcome State Fault Refusal := .refused .deepSleepNeverEmitted

/-- DTM1, start-transmission-1 (41_panel_commands.md R136). -/
def execDtm1 (s : State) : Host.Outcome State Fault Refusal :=
  .next (s.sendCommand (Config.opcode .dtm1))

/-- DRF, display-refresh; the busy wait before it is the program's (41_panel_commands.md R137). -/
def execDrf (s : State) : Host.Outcome State Fault Refusal :=
  .next (s.sendCommand (Config.opcode .drf))

/-- DTM2, start-transmission-2 (41_panel_commands.md R138). -/
def execDtm2 (s : State) : Host.Outcome State Fault Refusal :=
  .next (s.sendCommand (Config.opcode .dtm2))

/-- LUT_VCOM0, LUT table 0 (41_panel_commands.md R139). -/
def execLutVcom0 (s : State) : Host.Outcome State Fault Refusal :=
  .next (s.sendCommand (Config.opcode .lutVcom0))

/-- LUT_W, LUT table 1 (41_panel_commands.md R140). -/
def execLutW (s : State) : Host.Outcome State Fault Refusal :=
  .next (s.sendCommand (Config.opcode .lutW))

/-- LUT_B, LUT table 2 (41_panel_commands.md R141). -/
def execLutB (s : State) : Host.Outcome State Fault Refusal :=
  .next (s.sendCommand (Config.opcode .lutB))

/-- LUT_G1, LUT table 3 (41_panel_commands.md R142). -/
def execLutG1 (s : State) : Host.Outcome State Fault Refusal :=
  .next (s.sendCommand (Config.opcode .lutG1))

/-- LUT_G2, LUT table 4 (41_panel_commands.md R143). -/
def execLutG2 (s : State) : Host.Outcome State Fault Refusal :=
  .next (s.sendCommand (Config.opcode .lutG2))

/-- LUT_VCOM1, LUT table 5 (41_panel_commands.md R144). -/
def execLutVcom1 (s : State) : Host.Outcome State Fault Refusal :=
  .next (s.sendCommand (Config.opcode .lutVcom1))

/-- LUT_RED0, LUT table 6 (41_panel_commands.md R145). -/
def execLutRed0 (s : State) : Host.Outcome State Fault Refusal :=
  .next (s.sendCommand (Config.opcode .lutRed0))

/-- LUT_RED1, LUT table 7 (41_panel_commands.md R146). -/
def execLutRed1 (s : State) : Host.Outcome State Fault Refusal :=
  .next (s.sendCommand (Config.opcode .lutRed1))

/-- PLL, PLL-control (41_panel_commands.md R147). -/
def execPll (s : State) : Host.Outcome State Fault Refusal :=
  .next (s.sendCommand (Config.opcode .pll))

/-- CDI, VCOM-and-data-interval (41_panel_commands.md R148). -/
def execCdi (s : State) : Host.Outcome State Fault Refusal :=
  .next (s.sendCommand (Config.opcode .cdi))

/-- TRES, TCON-resolution (41_panel_commands.md R149). -/
def execTres (s : State) : Host.Outcome State Fault Refusal :=
  .next (s.sendCommand (Config.opcode .tres))

/-- VDCS, VCM-DC-setting (41_panel_commands.md R150). -/
def execVdcs (s : State) : Host.Outcome State Fault Refusal :=
  .next (s.sendCommand (Config.opcode .vdcs))

/-- DATA, a data unit: any byte (41_panel_commands.md R151). -/
def execData (b : Byte) (s : State) : Host.Outcome State Fault Refusal := .next (s.sendData b)

end Sys2Proof.Machine
end

