-- ==== Sys2Proof/Machine/Dispatch.lean ====
section
/-! DEFINITION. One arm per instruction. -/

namespace Sys2Proof.Machine

def exec (i : Instr) (s : State) : Host.Outcome State Fault Refusal :=
  match i with
  | .init => Sys2Proof.Machine.execInit s
  | .update => Sys2Proof.Machine.execUpdate s
  | .refresh => Sys2Proof.Machine.execRefresh s
  | .blank => Sys2Proof.Machine.execBlank s
  | .busy => Sys2Proof.Machine.execBusy s
  | .psr => Sys2Proof.Machine.execPsr s
  | .pwr => Sys2Proof.Machine.execPwr s
  | .pof => Sys2Proof.Machine.execPof s
  | .pon => Sys2Proof.Machine.execPon s
  | .btst => Sys2Proof.Machine.execBtst s
  | .dslp => Sys2Proof.Machine.execDslp s
  | .dtm1 => Sys2Proof.Machine.execDtm1 s
  | .drf => Sys2Proof.Machine.execDrf s
  | .dtm2 => Sys2Proof.Machine.execDtm2 s
  | .lutVcom0 => Sys2Proof.Machine.execLutVcom0 s
  | .lutW => Sys2Proof.Machine.execLutW s
  | .lutB => Sys2Proof.Machine.execLutB s
  | .lutG1 => Sys2Proof.Machine.execLutG1 s
  | .lutG2 => Sys2Proof.Machine.execLutG2 s
  | .lutVcom1 => Sys2Proof.Machine.execLutVcom1 s
  | .lutRed0 => Sys2Proof.Machine.execLutRed0 s
  | .lutRed1 => Sys2Proof.Machine.execLutRed1 s
  | .pll => Sys2Proof.Machine.execPll s
  | .cdi => Sys2Proof.Machine.execCdi s
  | .tres => Sys2Proof.Machine.execTres s
  | .vdcs => Sys2Proof.Machine.execVdcs s
  | .data b => Sys2Proof.Machine.execData b s

end Sys2Proof.Machine
end

