-- ==== Sys2Proof/Machine/Sequencer.lean ====
section
/-! DEFINITION. The sequencer's step (42_sequencer.md R170 to R176) and the block's own turn: a step of
the sequencer, or the admission of a request that waited. -/

namespace Sys2Proof.Machine

/-- The head of the program is taken (42_sequencer.md R172: `prog <- rest`). -/
def State.pop (s : State) (rest : Prog) : State := { s with prog := rest }

/-- `RSTL(l)` on the state (42_sequencer.md R170). -/
def State.driveReset (s : State) (l : Level) : State := { s.emit (.rst l) with rst := .driven l }

/-- `WAIT_BUSY` on the state: sample; high ends the wait, low puts a poll wait, a feed and another
sample before the rest (42_sequencer.md R176). -/
def State.waitBusy (s : State) (ph : Phase) (rest : Prog) : State :=
  match s.busyLevel with
  | .high => s.sampled.pop rest
  | .low =>
    s.sampled.pop ((ph, .wait Config.params.tPoll) :: (ph, .feed) :: (ph, .waitBusy) :: rest)

/-- An outcome with its next state settled (42_sequencer.md R172). -/
def settled : Host.Outcome State Fault Refusal → Host.Outcome State Fault Refusal
  | .next t => .next t.settle
  | .fault r => .fault r
  | .refused r => .refused r

/-- A wire micro-action: the sequencer waits for the transport, and then the unit's instruction runs
(40_command_protocol.md R110 to R112, 42_sequencer.md R172). -/
def unitStep (i : Instr) (rest : Prog) (s : State) : Host.Outcome State Fault Refusal :=
  if s.transportReady then settled (exec i (s.pop rest)) else .next s

/-- One micro-action (42_sequencer.md R172). -/
def microStep (ph : Phase) (a : MicroAction) (rest : Prog) (s : State) :
    Host.Outcome State Fault Refusal :=
  match a with
  | .cfg => .next ((s.pop rest).emit .cfg).settle
  | .rstl l => .next ((s.pop rest).driveReset l).settle
  | .cmd c => unitStep (.ofCommand c) rest s
  | .dat b => unitStep (.data b) rest s
  | .wait t => .next ((s.pop rest).emit (.wait t)).settle
  | .feed => .next ((s.pop rest).emit .feed).settle
  | .waitBusy => .next (s.waitBusy ph rest).settle
  | .clearDirty => .next (s.pop rest).clearDirty.settle

/-- A request code is decoded and its operation runs; a reserved code is refused (44_host_operations.md
R241 row 1). -/
def requestStep (q : BitVec 3) (s : State) : Host.Outcome State Fault Refusal :=
  match decodeHost q with
  | .ok i => exec i s
  | .error _ => .next (s.refuse .reservedOp)

/-- The block's turn. A faulted block takes no step (60_exceptions.md R271); a program in flight takes
one; an idle block admits the request that waits (44_host_operations.md R242) or stays as it is
(20_memory.md R58). Log entries 10 and 11. -/
def blockStep (s : State) : Host.Outcome State Fault Refusal :=
  if s.fault.isSome then .next s
  else
    match s.prog with
    | (ph, a) :: rest => microStep ph a rest s
    | [] =>
      if s.op.isSome then .next s
      else
        match s.pending with
        | some q => requestStep q { s with pending := none }
        | none => .next s

end Sys2Proof.Machine
end

