-- ==== Sys2Proof/Machine/HostPorts.lean ====
section
/-! DEFINITION. The host's ports: the framebuffer, dirty, status and response ports (20_memory.md R55,
44_host_operations.md R253 to R256) and the request port. -/

namespace Sys2Proof.Machine

/-- A host read returns a value; the block is unchanged (20_memory.md R57). Log entry 2. -/
def State.returns (s : State) (v : HostValue) : State := { s with hostReads := s.hostReads ++ [v] }

/-- `FBR(p, i)` (20_memory.md R55). -/
def State.fbr (s : State) (p : PlaneSel) (i : Nat) : State :=
  match framebufferAt p i with
  | some q => s.returns (.byte (Memory.read (s.plane q) i))
  | none => s.refuse .badIndex

/-- `FBW(p, i, v)`: the index is checked before the race (20_memory.md R55, 60_exceptions.md R277). -/
def State.fbw (s : State) (p : PlaneSel) (i : Nat) (v : Byte) : State :=
  match framebufferAt p i with
  | none => s.refuse .badIndex
  | some q =>
    if s.op.isSome then s.raiseFault .hostRace
    else s.setPlane q (Memory.write (s.plane q) i v)

/-- `DIRTY v` (44_host_operations.md R255). -/
def State.dirtyPort (s : State) (v : Bool) : State :=
  if s.op.isSome then s.raiseFault .hostRace else s.writeDirty v

/-- One action of the host agent (44_host_operations.md R253). A write to the status word has no effect
(10_state.md R35). -/
def hostStep (a : HostAction) (s : State) : Host.Outcome State Fault Refusal :=
  match a with
  | .request q => requestStep q s
  | .fbr p i => .next (s.fbr p i)
  | .fbw p i v => .next (s.fbw p i v)
  | .dirtyWrite v => .next (s.dirtyPort v)
  | .dirtyRead => .next (s.returns (.dirty s.dirty))
  | .status => .next (s.returns (.status s.statusWord))
  | .statusWrite _ => .next s
  | .readResp => .next (s.returns (.responses s.resp))

/-- `FILL p, v`: the host writes every byte of a plane in order (30_encoding.md R92, R93). -/
def fill (p : Plane) (v : Byte) : List HostTurn :=
  (List.range Config.planeBytes).map fun i => .act (.fbw (.plane p) i v)

/-- The agent whose turn it is moves: the host takes its next action, or the block does
(60_exceptions.md R281). -/
def agentStep (s : State) : Host.Outcome State Fault Refusal :=
  match s.host with
  | [] => blockStep s
  | .pass :: turns => blockStep { s with host := turns }
  | .act a :: turns => hostStep a { s with host := turns }

/-! ### Where the next instruction is fetched -/

/-- The request code of a HOSTOP3 word, put on the request port for the host's next turn. -/
def State.withRequest (s : State) (q : BitVec 3) : State :=
  { s with host := .act (.request q) :: s.host }

/-- A wire micro-action put at the head of the program, with an operation in flight and the block to
move. -/
def State.withUnit (s : State) (a : MicroAction) : State :=
  let ph := if s.op.isSome then s.phase else .initializing
  { s with
    host := .pass :: s.host
    op := some (s.op.getD .update)
    phase := ph
    prog := (ph, a) :: s.prog }

/-- The micro-action that sends a WIRE9 instruction's unit; a HOSTOP3 code is none. -/
def unitAction : Instr → Option MicroAction
  | .psr => some (.cmd .psr)
  | .pwr => some (.cmd .pwr)
  | .pof => some (.cmd .pof)
  | .pon => some (.cmd .pon)
  | .btst => some (.cmd .btst)
  | .dslp => some (.cmd .dslp)
  | .dtm1 => some (.cmd .dtm1)
  | .drf => some (.cmd .drf)
  | .dtm2 => some (.cmd .dtm2)
  | .lutVcom0 => some (.cmd .lutVcom0)
  | .lutW => some (.cmd .lutW)
  | .lutB => some (.cmd .lutB)
  | .lutG1 => some (.cmd .lutG1)
  | .lutG2 => some (.cmd .lutG2)
  | .lutVcom1 => some (.cmd .lutVcom1)
  | .lutRed0 => some (.cmd .lutRed0)
  | .lutRed1 => some (.cmd .lutRed1)
  | .pll => some (.cmd .pll)
  | .cdi => some (.cmd .cdi)
  | .tres => some (.cmd .tres)
  | .vdcs => some (.cmd .vdcs)
  | .data b => some (.dat b)
  | .init => none
  | .update => none
  | .refresh => none
  | .blank => none
  | .busy => none

/-- The word of a row stored where the next step fetches: a HOSTOP3 code on the request port, a WIRE9
unit at the head of the program. A word that is no code and no unit changes nothing. Log entry 14. -/
def State.placeWord (s : State) (nbits w : Nat) : State :=
  if nbits ≤ 8 then
    if w < 8 then s.withRequest (BitVec.ofNat 3 w) else s
  else
    match (decodeTableWord nbits w).bind unitAction with
    | some a => s.withUnit a
    | none => s

end Sys2Proof.Machine
end

