-- ==== Sys2Proof/Machine/Step.lean ====
section
/-! DEFINITION. One step of the machine, and the placing of one instruction where the next step fetches. -/

namespace Sys2Proof.Machine

/-- One step: one agent moves (60_exceptions.md R270, R281). -/
def step (s : State) : Host.Outcome State Fault Refusal := agentStep s

/-- The state whose next step runs the word of an opcode-table row. Log entry 14. -/
def State.withFetchWord (s : State) (nbits w : Nat) : State := s.placeWord nbits w

end Sys2Proof.Machine
end

