-- ==== Sys2Proof/Safety.lean ====
section
/-! DEFINITION. What counts as a sound state and a finished run, and what a program puts in the trace, in
the terms the statements use. -/

namespace Sys2Proof.Machine

/-! ### Runs -/

/-- A run has ended: nothing in flight, nothing waiting (60_exceptions.md R287). -/
def State.ended (s : State) : Bool := s.op == none && s.pending == none

/-- No misuse is recorded: the premise of every claim about the block (60_exceptions.md R271, R272). -/
def State.clean (s : State) : Bool := s.fault == none && !s.refused

/-! ### Turns -/

/-- It is the block's turn and `turns` are what comes after it: the host has passed, or has no turn left
(42_sequencer.md R172, 60_exceptions.md R281). Log entry 1. -/
def State.blockTurn (s : State) (turns : List HostTurn) : Prop :=
  s.host = .pass :: turns ∨ s.host = [] ∧ turns = []

/-! ### Invariants -/

/-- The sequencer's own state is coherent (10_state.md R24 to R26, 42_sequencer.md R193): nothing in
flight exactly when the program is empty; the phase is then Uninitialized or Ready and else the head's
tag; the program's tags are phases of an operation in flight and none of its steps is deep-sleep; a
waiting request has no reserved code. -/
structure ControlInv (s : State) : Prop where
  idle_iff : s.op = none ↔ s.prog = []
  idle_phase : s.op = none → s.phase = .uninitialized ∨ s.phase = .ready
  head_phase : ∀ ph a rest, s.prog = (ph, a) :: rest → s.phase = ph
  prog_wf : Prog.wellFormed s.prog = true
  pending_wf : ∀ q, s.pending = some q → reservedCode q = false

/-- Both planes are in canonical form: rising addresses below N, no byte listed that an unlisted address
reads as. -/
structure PlanesInv (s : State) : Prop where
  black_wf : Memory.wf s.fbBlack = true
  red_wf : Memory.wf s.fbRed = true

/-- The D/C level the newest wire event of a trace (newest first) left (10_state.md R30). -/
def dcAfter : List Event → Pin
  | [] => .unknown
  | .cmd _ :: _ => .driven Config.dcCmd
  | .data _ :: _ => .driven Config.dcCmd.flip
  | .rst _ :: es => dcAfter es
  | .wait _ :: es => dcAfter es
  | .feed :: es => dcAfter es
  | .sample _ :: es => dcAfter es
  | .cfg :: es => dcAfter es

/-- The level the newest reset event of a trace (newest first) left (10_state.md R30). -/
def rstAfter : List Event → Pin
  | [] => .unknown
  | .rst l :: _ => .driven l
  | .cmd _ :: es => rstAfter es
  | .data _ :: es => rstAfter es
  | .wait _ :: es => rstAfter es
  | .feed :: es => rstAfter es
  | .sample _ :: es => rstAfter es
  | .cfg :: es => rstAfter es

/-- The lines hold what the last event that drives them left (10_state.md R30). -/
structure PinsInv (s : State) : Prop where
  dc_eq : s.dc = dcAfter s.trace
  rst_eq : s.rst = rstAfter s.trace

/-- An event is a busy sample. -/
def isSample : Event → Bool
  | .sample _ => true
  | _ => false

/-- A response answers BUSY. -/
def isBusyr : Response → Bool
  | .busyr _ => true
  | .done _ => false

/-- Before the first INIT the block has only sampled BUSY (44_host_operations.md R241 row 4, R250). -/
structure FreshInv (s : State) : Prop where
  idle : s.phase = .uninitialized → s.op = none
  samples : s.phase = .uninitialized → ∀ e ∈ s.trace, isSample e = true
  answers : s.phase = .uninitialized → ∀ r ∈ s.resp, isBusyr r = true

/-- The arrows of the phase graph (42_sequencer.md R193). -/
def phaseArrow : Phase → Phase → Bool
  | .uninitialized, .resetting => true
  | .ready, .resetting => true
  | .ready, .refreshing => true
  | .ready, .transmittingBlack => true
  | .resetting, .initializing => true
  | .initializing, .transmittingBlack => true
  | .transmittingBlack, .transmittingRed => true
  | .transmittingRed, .refreshing => true
  | .refreshing, .waitingBusy => true
  | .refreshing, .ready => true
  | .waitingBusy, .sleeping => true
  | .sleeping, .ready => true
  | _, _ => false

/-- Along a program each change of tag is an arrow of the phase graph, and so is the completion. -/
def tagsFollowGraph : Prog → Bool
  | [] => true
  | [(ph, _)] => phaseArrow ph .ready
  | (ph, _) :: (ph', a') :: rest =>
    (ph == ph' || phaseArrow ph ph') && tagsFollowGraph ((ph', a') :: rest)

/-- A wait after which the block feeds the watchdog (60_exceptions.md R284). -/
def feedableWait : Event → Bool
  | .wait t => t == Config.params.tPoll || t == Config.tHold
  | _ => false

/-- In a trace (oldest first) each feed comes right after a poll wait or a sleep hold (60_exceptions.md
R284). The first argument is the event before the list. -/
def feedsFollowWaits : Option Event → List Event → Bool
  | _, [] => true
  | before, .feed :: es =>
    (match before with
      | some e => feedableWait e
      | none => false) && feedsFollowWaits (some .feed) es
  | _, e :: es => feedsFollowWaits (some e) es

/-! ### What a program puts in the trace -/

/-- The events of a busy wait that draws `k` low levels and then a high one (42_sequencer.md R176). -/
def busyWaitEvents : Nat → List Event
  | 0 => [.sample .high]
  | k + 1 => .sample .low :: .wait Config.params.tPoll :: .feed :: busyWaitEvents k

/-- The levels of busy waits that draw `ks` low levels each before their high one. -/
def busyScript (ks : List Nat) : List Level := ks.flatMap fun k => List.replicate k .low ++ [.high]

/-- How many busy waits a program has (42_sequencer.md R198). -/
def busyWaits (p : Prog) : Nat := p.countP fun x => x.2 == .waitBusy

/-- The events of a program whose busy waits draw `ks` low levels (42_sequencer.md R172). -/
def progEvents : Prog → List Nat → List Event
  | [], _ => []
  | (_, .cfg) :: p, ks => .cfg :: progEvents p ks
  | (_, .rstl l) :: p, ks => .rst l :: progEvents p ks
  | (_, .cmd c) :: p, ks => .cmd (Config.opcode c) :: progEvents p ks
  | (_, .dat b) :: p, ks => .data b :: progEvents p ks
  | (_, .wait t) :: p, ks => .wait t :: progEvents p ks
  | (_, .feed) :: p, ks => .feed :: progEvents p ks
  | (_, .waitBusy) :: p, k :: ks => busyWaitEvents k ++ progEvents p ks
  | (_, .waitBusy) :: p, [] => busyWaitEvents 0 ++ progEvents p []
  | (_, .clearDirty) :: p, ks => progEvents p ks

/-- A command and its data block on the wire (40_command_protocol.md R117). -/
def blockEvents (c : Command) (bs : List Byte) : List Event :=
  .cmd (Config.opcode c) :: bs.map .data

/-- The events of the wake sequence, written out from 95_test_vectors.md V8.2 positions 0 to 154. -/
def wakeEvents (k : Nat) : List Event :=
  List.flatten
    [[.rst .low, .wait 200000, .rst .high, .wait 200000],
     blockEvents .pwr (List.ofFn Config.params.pwrInit),
     blockEvents .btst (List.ofFn Config.params.btstV),
     blockEvents .pon [],
     busyWaitEvents k,
     blockEvents .psr [Config.params.psrV],
     blockEvents .cdi [Config.params.cdiInit],
     blockEvents .pll [Config.params.pllV],
     blockEvents .tres (List.ofFn Config.params.tresV),
     blockEvents .vdcs [Config.params.vdcsInit],
     blockEvents .lutVcom0 (List.ofFn (Config.params.lut 0)),
     blockEvents .lutW (List.ofFn (Config.params.lut 1)),
     blockEvents .lutB (List.ofFn (Config.params.lut 2)),
     blockEvents .lutG1 (List.ofFn (Config.params.lut 3)),
     blockEvents .lutG2 (List.ofFn (Config.params.lut 4)),
     blockEvents .lutVcom1 (List.ofFn (Config.params.lut 5)),
     blockEvents .lutRed0 (List.ofFn (Config.params.lut 6)),
     blockEvents .lutRed1 (List.ofFn (Config.params.lut 7))]

/-- The events of the transmit sequence (95_test_vectors.md V8.2 positions 155 to 15160). -/
def transmitEvents (black red : List Byte) : List Event :=
  List.flatten
    [[.cmd (Config.opcode .dtm1), .wait 2000], black.map Event.data, [.wait 2000],
     [.cmd (Config.opcode .dtm2), .wait 2000], red.map Event.data, [.wait 2000]]

/-- The events of the sleep sequence (95_test_vectors.md V8.2 positions 15164 to 15179). -/
def sleepEvents : List Event :=
  List.flatten
    [blockEvents .cdi [Config.params.cdiSleep], blockEvents .vdcs [Config.params.vdcsSleep],
     blockEvents .pwr [0x00, 0x00, 0x00, 0x00],
     [.wait 500000, .feed, .wait 500000, .feed, .wait 500000, .feed],
     blockEvents .pof []]

/-- The events from the busy wait before display-refresh to power-off. -/
def refreshAndSleepEvents (k1 k2 : Nat) : List Event :=
  busyWaitEvents k1 ++ [.cmd 0x12] ++ busyWaitEvents k2 ++ sleepEvents

/-- How many events of each kind a list has: C, D, W, F, S, RST, CFG (42_sequencer.md R195). -/
def eventCounts (es : List Event) : List Nat :=
  [es.countP fun e => match e with
      | .cmd _ => true
      | _ => false,
   es.countP fun e => match e with
      | .data _ => true
      | _ => false,
   es.countP fun e => match e with
      | .wait _ => true
      | _ => false,
   es.countP fun e => match e with
      | .feed => true
      | _ => false,
   es.countP fun e => match e with
      | .sample _ => true
      | _ => false,
   es.countP fun e => match e with
      | .rst _ => true
      | _ => false,
   es.countP fun e => match e with
      | .cfg => true
      | _ => false]

/-- The least time, in microseconds, that the waits of a trace take (70_reset_and_hazards.md R312, R313). -/
def waitMicros : List Event → Nat
  | [] => 0
  | .wait t :: es => t + waitMicros es
  | .cmd _ :: es => waitMicros es
  | .data _ :: es => waitMicros es
  | .rst _ :: es => waitMicros es
  | .feed :: es => waitMicros es
  | .sample _ :: es => waitMicros es
  | .cfg :: es => waitMicros es

/-- The pixels of a plane in row-major order (20_memory.md R52). -/
def pixelsRowMajor (m : Memory) : List Bool :=
  (List.range (Config.width * Config.height)).map fun p =>
    pixel m (p % Config.width) (p / Config.width)

end Sys2Proof.Machine
end

