-- ==== Sys2Proof/Certificates/Slice0/Obligations.lean ====
section
/-! DEFINITION. The statements for the provers. -/

open Sys2Proof Sys2Proof.Machine

/-! ### Parameters and encodings -/

/-- R9: `N = WIDTH*HEIGHT/8` exactly, 5000 for this hardware, both planes have length N, and the
twenty-one opcode bytes are one byte each and pairwise distinct. -/
def Obligations.ParametersConstrained : Prop :=
  Config.width * Config.height % 8 = 0 ∧ Config.planeBytes = Config.width * Config.height / 8 ∧
  Config.planeBytes = 5000 ∧
  (∀ s : State, (Memory.bytes s.fbBlack).length = Config.planeBytes ∧
    (Memory.bytes s.fbRed).length = Config.planeBytes) ∧
  Command.all.length = 21 ∧
  ∀ c d : Command, Config.opcode c = Config.opcode d → c = d

/-- R81: the five request codes, decoded and encoded; the other three decode to nothing (R82). -/
def Obligations.HostCodesDecode : Prop :=
  decodeHost 1 = .ok .init ∧ decodeHost 2 = .ok .update ∧ decodeHost 3 = .ok .refresh ∧
  decodeHost 4 = .ok .blank ∧ decodeHost 5 = .ok .busy ∧
  (∀ q : BitVec 3, q = 0 ∨ q = 6 ∨ q = 7 → decodeHost q = .error (.reservedOp q)) ∧
  ∀ m : OpcodeMap, encode m .init = .hostop3 1 ∧ encode m .update = .hostop3 2 ∧
    encode m .refresh = .hostop3 3 ∧ encode m .blank = .hostop3 4 ∧ encode m .busy = .hostop3 5

/-- Words of spec/opcode_table.json, bit by bit, decode to their rows.
How the table's words are read is the model's: log entries 7 and 15. -/
def Obligations.TableWordsDecode : Prop :=
  decodeTableWord 8 0b001 = some .init ∧ decodeTableWord 8 0b100 = some .blank ∧
  decodeTableWord 16 0b000000000 = some .psr ∧ decodeTableWord 16 0b000000100 = some .pon ∧
  decodeTableWord 16 0b000010010 = some .drf ∧ decodeTableWord 16 0b000100111 = some .lutRed1 ∧
  decodeTableWord 16 0b010000010 = some .vdcs ∧
  decodeTableWord 16 0b100010010 = some (.data 0b00010010) ∧ decodeTableWord 8 0b110 = none

/-- Decoding what the encoder writes gives the instruction back, for every instruction, every data byte
and every opcode map with distinct bytes (R9). -/
def Obligations.DecodeEncodeAgree : Prop :=
  ∀ m : OpcodeMap, m.distinct = true → ∀ i : Instr, decode m (encode m i) = .ok i

/-- Every coded unit the decoder accepts is the encoding of what it answers: no bit is ignored. -/
def Obligations.EncodeDecodeAgree : Prop :=
  ∀ (m : OpcodeMap) (c : Code) (i : Instr), decode m c = .ok i → encode m i = c

/-- R84 and R90: the wire units of an UPDATE, whatever the planes and the busy levels, read as the
twenty-three commands in order, each owning exactly its data block. -/
def Obligations.UpdateStreamFraming : Prop :=
  ∀ (b r : List Byte) (ks : List Nat),
    streamBlocks Config.params.opcodes
        ((progEvents (updateProg b r) ks).filterMap (eventUnit Config.params.opcodes)) =
      .ok ([(.pwr, List.ofFn Config.params.pwrInit), (.btst, List.ofFn Config.params.btstV),
        (.pon, []), (.psr, [Config.params.psrV]), (.cdi, [Config.params.cdiInit]),
        (.pll, [Config.params.pllV]), (.tres, List.ofFn Config.params.tresV),
        (.vdcs, [Config.params.vdcsInit]),
        (.lutVcom0, List.ofFn (Config.params.lut 0)), (.lutW, List.ofFn (Config.params.lut 1)),
        (.lutB, List.ofFn (Config.params.lut 2)), (.lutG1, List.ofFn (Config.params.lut 3)),
        (.lutG2, List.ofFn (Config.params.lut 4)), (.lutVcom1, List.ofFn (Config.params.lut 5)),
        (.lutRed0, List.ofFn (Config.params.lut 6)), (.lutRed1, List.ofFn (Config.params.lut 7)),
        (.dtm1, blackWire b), (.dtm2, r), (.drf, []), (.cdi, [Config.params.cdiSleep]),
        (.vdcs, [Config.params.vdcsSleep]), (.pwr, [0, 0, 0, 0]), (.pof, [])], [])

/-! ### The step and the instruction it runs -/

/-- A request on the host's turn: the step runs the decoded operation on the state without that turn.
The turns are the model's own: log entry 1. -/
def Obligations.StepRunsRequest : Prop :=
  ∀ (s : State) (q : BitVec 3) (turns : List HostTurn) (i : Instr),
    s.host = .act (.request q) :: turns → decode Config.params.opcodes (.hostop3 q) = .ok i →
    step s = exec i { s with host := turns }

/-- The block's turn, with a wire micro-action at the head of the program: when its unit decodes to `i`
and the transport is ready, the step runs `i` on the state without the head, and then completes the
operation or takes the phase of the next head (R172).
The turns and the transport are the model's own: log entries 1 and 4. -/
def Obligations.StepRunsWireUnit : Prop :=
  ∀ (s : State) (ph : Phase) (a : MicroAction) (rest : Prog) (u : BitVec 9) (i : Instr)
    (turns : List HostTurn),
    s.blockTurn turns → s.fault = none → s.transportReady = true → s.prog = (ph, a) :: rest →
    ((∃ c, a = .cmd c ∧ u = commandUnit Config.params.opcodes c) ∨
      (∃ b, a = .dat b ∧ u = dataUnit Config.params.opcodes b)) →
    decode Config.params.opcodes (.wire9 u) = .ok i →
    step s =
      match exec i { s with host := turns, prog := rest } with
      | .next t => .next t.settle
      | .fault r => .fault r
      | .refused r => .refused r

/-- A request that waited (R242): an idle block's turn runs it on the state without it.
Turns, and that the admission is a step of its own, are the model's: log entries 1 and 11. -/
def Obligations.StepRunsHeldRequest : Prop :=
  ∀ (s : State) (q : BitVec 3) (i : Instr) (turns : List HostTurn),
    s.blockTurn turns → s.fault = none → s.op = none → s.prog = [] → s.pending = some q →
    decode Config.params.opcodes (.hostop3 q) = .ok i →
    step s = exec i { s with host := turns, pending := none }

/-! ### The five host operations -/

/-- INIT is accepted when idle, in any phase (R241 row 6, R243).
That an accepted request drops one that waited is the model's reading of R22 and R242: log entry 11. -/
def Obligations.InitAccepted : Prop :=
  ∀ s : State, s.fault = none → s.op = none →
    exec .init s = .next { s with
      op := some .init
      prog := initProg (Memory.bytes s.fbBlack) (Memory.bytes s.fbRed)
      phase := .resetting
      pending := none }

/-- UPDATE is accepted when idle after an INIT, whatever `dirty` is (R241 row 7, R244).
That an accepted request drops one that waited is the model's reading of R22 and R242: log entry 11. -/
def Obligations.UpdateAccepted : Prop :=
  ∀ s : State, s.fault = none → s.op = none → s.phase ≠ .uninitialized →
    exec .update s = .next { s with
      op := some .update
      prog := updateProg (Memory.bytes s.fbBlack) (Memory.bytes s.fbRed)
      phase := .resetting
      pending := none }

/-- REFRESH is accepted when idle after an INIT (R241 row 8, R245).
That an accepted request drops one that waited is the model's reading of R22 and R242: log entry 11. -/
def Obligations.RefreshAccepted : Prop :=
  ∀ s : State, s.fault = none → s.op = none → s.phase ≠ .uninitialized →
    exec .refresh s = .next { s with
      op := some .refresh
      prog := [(.refreshing, .waitBusy), (.refreshing, .cmd .drf)]
      phase := .refreshing
      pending := none }

/-- BLANK is accepted when idle after an INIT; its first phase is set by BLANK_WAKES (R241 row 9,
R246).
That an accepted request drops one that waited is the model's reading of R22 and R242: log entry 11. -/
def Obligations.BlankAccepted : Prop :=
  ∀ s : State, s.fault = none → s.op = none → s.phase ≠ .uninitialized →
    exec .blank s = .next { s with
      op := some .blank
      prog := blankProg Config.params.blankWakes
      phase := if Config.params.blankWakes then .resetting else .transmittingBlack
      pending := none }

/-- BUSY is answered in its own step, in any phase: one sample, and the answer true exactly for a low
level, which is the environment's next level where it has one (R34, R250).
The environment's fields are the model's: log entry 3.
That an accepted request drops one that waited is the model's reading of R22 and R242: log entry 11. -/
def Obligations.BusyAnswered : Prop :=
  busyIndication .low = true ∧ busyIndication .high = false ∧
  (∀ s : State, s.fault = none → s.op = none →
    exec .busy s = .next { s with
      trace := .sample s.busyLevel :: s.trace
      resp := s.resp ++ [.busyr (s.busyLevel == .low)]
      busyIn := s.busyIn.tail
      draws := s.draws + 1
      pending := none }) ∧
  ∀ (s : State) (l : Level) (more : List Level), s.busyIn = l :: more → s.busyLevel = l

/-- A request made while an operation is in flight or the block is faulted waits; it replaces one that
waited before, and nothing else changes (R241 rows 2 and 3, R242). -/
def Obligations.RequestHeld : Prop :=
  ∀ s : State, s.fault.isSome = true ∨ s.op.isSome = true →
    exec .init s = .next { s with pending := some 1 } ∧
    exec .update s = .next { s with pending := some 2 } ∧
    exec .refresh s = .next { s with pending := some 3 } ∧
    exec .blank s = .next { s with pending := some 4 } ∧
    exec .busy s = .next { s with pending := some 5 }

/-- UPDATE, REFRESH and BLANK before the first INIT only set the refused mark (R241 row 4). -/
def Obligations.RefusedBeforeInit : Prop :=
  ∀ s : State, s.fault = none → s.op = none → s.phase = .uninitialized →
    exec .update s = .next { s with refused := true } ∧
    exec .refresh s = .next { s with refused := true } ∧
    exec .blank s = .next { s with refused := true }

/-- R82: a request with a reserved code is refused, idle or busy, and changes nothing else. -/
def Obligations.ReservedCodesRefused : Prop :=
  ∀ (s : State) (q : BitVec 3) (turns : List HostTurn),
    q = 0 ∨ q = 6 ∨ q = 7 → s.host = .act (.request q) :: turns →
    step s = .next { s with host := turns, refused := true }

/-! ### The units of the panel wire -/

/-- Each command unit drives D/C to the command level and emits its opcode byte, and nothing else changes
(R110, R130 to R150); the sourced bytes are literals, the others the parameters `OPC_*` (R88).
The count of units the transport still takes is the model's own: log entry 4. -/
def Obligations.CommandUnitsSent : Prop :=
  ∀ s : State, s.transportReady = true →
    ∀ x ∈ ([(.psr, 0x00), (.pwr, Config.params.opcodes.pwr), (.pof, Config.params.opcodes.pof),
        (.pon, 0x04), (.btst, Config.params.opcodes.btst), (.dtm1, Config.params.opcodes.dtm1),
        (.drf, 0x12), (.dtm2, Config.params.opcodes.dtm2),
        (.lutVcom0, Config.params.opcodes.lutVcom0), (.lutW, Config.params.opcodes.lutW),
        (.lutB, Config.params.opcodes.lutB), (.lutG1, Config.params.opcodes.lutG1),
        (.lutG2, Config.params.opcodes.lutG2), (.lutVcom1, Config.params.opcodes.lutVcom1),
        (.lutRed0, Config.params.opcodes.lutRed0), (.lutRed1, Config.params.opcodes.lutRed1),
        (.pll, Config.params.opcodes.pll), (.cdi, Config.params.opcodes.cdi),
        (.tres, Config.params.opcodes.tres), (.vdcs, Config.params.opcodes.vdcs)] :
        List (Instr × Byte)),
      exec x.1 s = .next { s with
        dc := .driven Config.params.opcodes.dcCmd
        trace := .cmd x.2 :: s.trace
        stallIn := s.stallIn.map (· - 1) }

/-- A data unit drives D/C to the other level and emits its byte, any byte, and nothing else changes
(R111, R151).
The count of units the transport still takes is the model's own: log entry 4. -/
def Obligations.DataUnitSent : Prop :=
  ∀ (s : State) (b : Byte), s.transportReady = true →
    exec (.data b) s = .next { s with
      dc := .driven Config.params.opcodes.dcCmd.flip
      trace := .data b :: s.trace
      stallIn := s.stallIn.map (· - 1) }

/-- Deep-sleep has no step (R135).
The refusal is the model's: log entry 13. -/
def Obligations.DeepSleepStops : Prop :=
  ∀ s : State, exec .dslp s = .refused .deepSleepNeverEmitted

/-- R111, R113 and R117: a command with its data block emits `C(c)`, then each data byte in order; an
empty block emits nothing more.
That the transport takes every unit is a premise on the model's own field: log entry 4. -/
def Obligations.CommandSequenceEmits : Prop :=
  ∀ (s : State) (c : Byte) (bs : List Byte), s.stallIn = none →
    (s.sendCommandSequence c bs).events = s.events ++ .cmd c :: bs.map .data ∧
    (s.sendDataSequence bs).events = s.events ++ bs.map .data ∧
    s.sendDataSequence [] = s ∧
    (bs ≠ [] → (s.sendDataSequence bs).dc = .driven Config.dcCmd.flip)

/-- A transport that never completes leaves the block waiting at a wire unit for ever, and nothing else
moves (R114, R276).
The transport's field is the model's: log entry 4. -/
def Obligations.StalledTransportHangs : Prop :=
  ∀ (s : State) (ph : Phase) (a : MicroAction) (rest : Prog) (n : Nat),
    s.stallIn = some 0 → s.host = [] → s.fault = none → s.prog = (ph, a) :: rest →
    (∃ c, a = .cmd c) ∨ (∃ b, a = .dat b) →
    Sys2Proof.core.run n s = .next s

/-! ### The sequencer -/

/-- The micro-actions that neither send a unit nor sample: the effect and the event of each, when more of
the program follows (R170, R172).
Turns are the model's own: log entry 1. -/
def Obligations.QuietMicroActions : Prop :=
  ∀ (s : State) (ph ph' : Phase) (a' : MicroAction) (rest : Prog) (l : Level) (us : Nat)
    (turns : List HostTurn),
    s.blockTurn turns → s.fault = none →
    let tail := (ph', a') :: rest
    (s.prog = (ph, .cfg) :: tail →
      step s = .next { s with host := turns, prog := tail, phase := ph', trace := .cfg :: s.trace }) ∧
    (s.prog = (ph, .rstl l) :: tail →
      step s = .next { s with
        host := turns, prog := tail, phase := ph', rst := .driven l, trace := .rst l :: s.trace }) ∧
    (s.prog = (ph, .wait us) :: tail →
      step s = .next { s with host := turns, prog := tail, phase := ph', trace := .wait us :: s.trace }) ∧
    (s.prog = (ph, .feed) :: tail →
      step s = .next { s with host := turns, prog := tail, phase := ph', trace := .feed :: s.trace }) ∧
    (s.prog = (ph, .clearDirty) :: tail →
      step s = .next { s with host := turns, prog := tail, phase := ph', dirty := false })

/-- One sample of a busy wait: high ends it with no feed, and completes the operation where nothing comes
after it; low puts a poll wait, a feed and another sample before the rest, in the same phase (R176, R194).
The turns and the environment's levels are the model's own fields: log entries 1 and 3. -/
def Obligations.BusyWaitSamples : Prop :=
  ∀ (s : State) (ph : Phase) (rest : Prog) (turns : List HostTurn),
    s.blockTurn turns → s.fault = none → s.prog = (ph, .waitBusy) :: rest →
    (∀ ph' a' more, s.busyLevel = .high → rest = (ph', a') :: more →
      step s = .next { s with
        host := turns, prog := rest, phase := ph', trace := .sample .high :: s.trace
        busyIn := s.busyIn.tail, draws := s.draws + 1 }) ∧
    (∀ o, s.busyLevel = .high → rest = [] → s.op = some o →
      step s = .next { s with
        host := turns, prog := [], phase := .ready, op := none, resp := s.resp ++ [.done o]
        trace := .sample .high :: s.trace, busyIn := s.busyIn.tail, draws := s.draws + 1 }) ∧
    (s.busyLevel = .low →
      step s = .next { s with
        host := turns
        prog := (ph, .wait Config.params.tPoll) :: (ph, .feed) :: (ph, .waitBusy) :: rest
        phase := ph, trace := .sample .low :: s.trace
        busyIn := s.busyIn.tail, draws := s.draws + 1 })

/-- R194: the step after which the program is empty appends `DONE(op)`, sets `op` to none and the phase
to Ready; completion itself emits no event. `blockTurn` says that the step is the sequencer's: log
entry 1. -/
def Obligations.CompletionStep : Prop :=
  ∀ (s t : State) (ph : Phase) (a : MicroAction) (o : Op) (turns : List HostTurn),
    s.blockTurn turns → s.fault = none → s.op = some o → s.prog = [(ph, a)] → step s = .next t →
    t.prog = [] →
    t.resp = s.resp ++ [.done o] ∧ t.op = none ∧ t.phase = .ready ∧
    t.trace = (progEvents [(ph, a)] []).reverse ++ s.trace

/-- A busy wait that draws k low levels and then a high one takes 3k+1 steps and emits k groups
`S(0) W(T_POLL) F` and then `S(1)`; the program goes on after it (R176).
The environment's levels are the model's own field: log entry 3. -/
def Obligations.BusyWaitRuns : Prop :=
  ∀ (s : State) (ph ph' : Phase) (a' : MicroAction) (rest : Prog) (k : Nat) (more : List Level),
    s.host = [] → s.fault = none → s.prog = (ph, .waitBusy) :: (ph', a') :: rest →
    s.busyIn = List.replicate k .low ++ .high :: more →
    Sys2Proof.core.run (3 * k + 1) s = .next { s with
      prog := (ph', a') :: rest
      phase := ph'
      trace := (busyWaitEvents k).reverse ++ s.trace
      busyIn := more
      draws := s.draws + (k + 1) }

/-- R276: while the samples are low the operation does not complete: after k polls the program stands at
the same wait, no response is added, and the trace has grown by k groups `S(0) W(T_POLL) F`.
The environment's levels are the model's own field: log entry 3. -/
def Obligations.LowBusyNeverCompletes : Prop :=
  ∀ (s : State) (ph : Phase) (rest : Prog) (k : Nat) (more : List Level),
    s.host = [] → s.fault = none → s.prog = (ph, .waitBusy) :: rest → s.phase = ph →
    s.busyIn = List.replicate k .low ++ more →
    Sys2Proof.core.run (3 * k) s = .next { s with
      trace := (List.replicate k
        [Event.feed, .wait Config.params.tPoll, .sample .low]).flatten ++ s.trace
      busyIn := more
      draws := s.draws + k }

/-! ### The programs -/

/-- The wake, UPDATE, INIT, REFRESH and BLANK programs put exactly the documented events in the trace, in
the documented order, for every plane contents and every number of low samples (R177 to R192). -/
def Obligations.ProgramEventsInOrder : Prop :=
  (∀ k, progEvents wake [k] = wakeEvents k) ∧
  (∀ b r k1 k2 k3, progEvents (updateProg b r) [k1, k2, k3] =
    wakeEvents k1 ++ transmitEvents (blackWire b) r ++ refreshAndSleepEvents k2 k3) ∧
  (∀ b r ks, progEvents (initProg b r) ks = .cfg :: progEvents (updateProg b r) ks) ∧
  (∀ k, progEvents refreshProg [k] = busyWaitEvents k ++ [.cmd 0x12]) ∧
  (∀ k1 k2 k3, progEvents (blankProg true) [k1, k2, k3] =
    wakeEvents k1 ++ transmitEvents (List.replicate 10000 0xFF) (List.replicate 5000 0xFF) ++
      refreshAndSleepEvents k2 k3) ∧
  (∀ k2 k3, progEvents (blankProg false) [k2, k3] =
    transmitEvents (List.replicate 10000 0xFF) (List.replicate 5000 0xFF) ++
      refreshAndSleepEvents k2 k3)

/-- R195 and R312: the event counts of every operation for this hardware and the least time its waits
take, with `ks` low samples in the busy waits, and k their sum. -/
def Obligations.EventCountsPerOperation : Prop :=
  (∀ (mB mR : Memory) (ks : List Nat), ks.length = 3 →
    let b := Memory.bytes mB
    let r := Memory.bytes mR
    let k := ks.sum
    eventCounts (progEvents (initProg b r) ks) = [23, 15140, 9 + k, 3 + k, 3 + k, 2, 1] ∧
    (progEvents (initProg b r) ks).length = 15181 + 3 * k ∧
    waitMicros (progEvents (initProg b r) ks) = 1908000 + k * Config.params.tPoll ∧
    eventCounts (progEvents (updateProg b r) ks) = [23, 15140, 9 + k, 3 + k, 3 + k, 2, 0] ∧
    (progEvents (updateProg b r) ks).length = 15180 + 3 * k ∧
    waitMicros (progEvents (updateProg b r) ks) = 1908000 + k * Config.params.tPoll ∧
    eventCounts (progEvents (blankProg true) ks) = [23, 15140, 9 + k, 3 + k, 3 + k, 2, 0] ∧
    (progEvents (blankProg true) ks).length = 15180 + 3 * k ∧
    waitMicros (progEvents (blankProg true) ks) = 1908000 + k * Config.params.tPoll) ∧
  (∀ k, eventCounts (progEvents refreshProg [k]) = [1, 0, k, k, 1 + k, 0, 0] ∧
    (progEvents refreshProg [k]).length = 2 + 3 * k ∧
    waitMicros (progEvents refreshProg [k]) = k * Config.params.tPoll) ∧
  (∀ k1 k2, let k := k1 + k2
    eventCounts (progEvents (blankProg false) [k1, k2]) = [7, 15006, 7 + k, 3 + k, 2 + k, 0, 0] ∧
    (progEvents (blankProg false) [k1, k2]).length = 15025 + 3 * k ∧
    waitMicros (progEvents (blankProg false) [k1, k2]) = 1508000 + k * Config.params.tPoll)

/-- Every run of a well-formed program in flight, with its busy waits drawing `ks` low levels: after one
step per micro-action and three more per low sample it has completed, its events are in the trace in
program order, one `DONE` is added, and `dirty` changes only by a CLEAR_DIRTY (R172, R176, R194).
Turns, levels and transport are the model's own fields: log entries 1, 3 and 4.
That a request goes on waiting through the completion step is log entry 11. -/
def Obligations.ProgramRunsToCompletion : Prop :=
  ∀ (s : State) (o : Op) (ks : List Nat) (more : List Level),
    s.host = [] → s.fault = none → s.stallIn = none → s.op = some o → s.prog ≠ [] →
    Prog.wellFormed s.prog = true → ks.length = busyWaits s.prog →
    s.busyIn = busyScript ks ++ more →
    ∃ t, Sys2Proof.core.run (s.prog.length + 3 * ks.sum) s = .next t ∧
      t.events = s.events ++ progEvents s.prog ks ∧
      t.prog = [] ∧ t.op = none ∧ t.phase = .ready ∧ t.resp = s.resp ++ [.done o] ∧
      t.dirty = (s.dirty && !(s.prog.any fun x => x.2 == .clearDirty)) ∧
      t.fbBlack = s.fbBlack ∧ t.fbRed = s.fbRed ∧ t.fault = none ∧ t.refused = s.refused ∧
      t.pending = s.pending ∧ t.busyIn = more ∧ t.stallIn = none ∧ t.host = []

/-- The whole UPDATE: from idle after an INIT, with the transport up and busy waits drawing k1, k2, k3 low
levels, the request and its 15181 + 3k steps give the documented trace, clear `dirty`, answer
`DONE(UPDATE)`, return to Ready and leave the planes alone (R244, R189, R194).
The premises name the model's own fields: log entries 1, 3 and 4. -/
def Obligations.UpdateFullCycle : Prop :=
  ∀ (s : State) (k1 k2 k3 : Nat) (more : List Level),
    s.host = [.act (.request 2)] → s.fault = none → s.op = none → s.prog = [] →
    s.phase = .ready → s.stallIn = none → s.busyIn = busyScript [k1, k2, k3] ++ more →
    ∃ t, Sys2Proof.core.run (15182 + 3 * (k1 + k2 + k3)) s = .next t ∧
      t.events = s.events ++ wakeEvents k1 ++
        transmitEvents (blackWire (Memory.bytes s.fbBlack)) (Memory.bytes s.fbRed) ++
        refreshAndSleepEvents k2 k3 ∧
      t.dirty = false ∧ t.resp = s.resp ++ [.done .update] ∧ t.op = none ∧ t.prog = [] ∧
      t.phase = .ready ∧ t.dc = .driven Config.dcCmd ∧ t.rst = .driven .high ∧
      t.fbBlack = s.fbBlack ∧ t.fbRed = s.fbRed ∧ t.fault = none ∧ t.refused = s.refused

/-- The whole INIT, from block reset or from idle (R243, R190).
The premises name the model's own fields: log entries 1, 3 and 4. -/
def Obligations.InitFullCycle : Prop :=
  ∀ (s : State) (k1 k2 k3 : Nat) (more : List Level),
    s.host = [.act (.request 1)] → s.fault = none → s.op = none → s.prog = [] →
    s.stallIn = none → s.busyIn = busyScript [k1, k2, k3] ++ more →
    ∃ t, Sys2Proof.core.run (15183 + 3 * (k1 + k2 + k3)) s = .next t ∧
      t.events = s.events ++ [.cfg] ++ wakeEvents k1 ++
        transmitEvents (blackWire (Memory.bytes s.fbBlack)) (Memory.bytes s.fbRed) ++
        refreshAndSleepEvents k2 k3 ∧
      t.dirty = false ∧ t.resp = s.resp ++ [.done .init] ∧ t.op = none ∧ t.prog = [] ∧
      t.phase = .ready ∧ t.dc = .driven Config.dcCmd ∧ t.rst = .driven .high ∧
      t.fbBlack = s.fbBlack ∧ t.fbRed = s.fbRed ∧ t.fault = none ∧ t.refused = s.refused

/-- The whole BLANK, with a wake or without one as BLANK_WAKES says: exactly 10000 and 5000 bytes 0xFF,
the planes and `dirty` as they were (R246, R192, R226).
The premises name the model's own fields: log entries 1, 3 and 4. -/
def Obligations.BlankFullCycle : Prop :=
  ∀ (s : State) (k1 k2 k3 : Nat) (more : List Level),
    s.host = [.act (.request 4)] → s.fault = none → s.op = none → s.prog = [] →
    s.phase = .ready → s.stallIn = none →
    s.busyIn = busyScript (if Config.params.blankWakes then [k1, k2, k3] else [k2, k3]) ++ more →
    ∃ t, Sys2Proof.core.run
        (if Config.params.blankWakes then 15181 + 3 * (k1 + k2 + k3) else 15026 + 3 * (k2 + k3)) s =
        .next t ∧
      t.events = s.events ++ (if Config.params.blankWakes then wakeEvents k1 else []) ++
        transmitEvents (List.replicate 10000 0xFF) (List.replicate 5000 0xFF) ++
        refreshAndSleepEvents k2 k3 ∧
      t.dirty = s.dirty ∧ t.resp = s.resp ++ [.done .blank] ∧ t.op = none ∧ t.prog = [] ∧
      t.phase = .ready ∧ t.fbBlack = s.fbBlack ∧ t.fbRed = s.fbRed ∧ t.fault = none ∧
      t.refused = s.refused

/-- The whole REFRESH and all it changes: a busy wait and display-refresh in the trace, D/C and the
responses, and a request that waited (R245, R191).
The premises name the model's own fields: log entries 1, 3 and 4.
That an accepted request drops one that waited is the model's reading of R22 and R242: log entry 11. -/
def Obligations.RefreshFullCycle : Prop :=
  ∀ (s : State) (k : Nat) (more : List Level),
    s.host = [.act (.request 3)] → s.fault = none → s.op = none → s.prog = [] →
    s.phase = .ready → s.stallIn = none → s.busyIn = busyScript [k] ++ more →
    Sys2Proof.core.run (3 + 3 * k) s = .next { s with
      host := []
      trace := .cmd 0x12 :: ((busyWaitEvents k).reverse ++ s.trace)
      dc := .driven Config.dcCmd
      resp := s.resp ++ [.done .refresh]
      pending := none
      busyIn := more
      draws := s.draws + (k + 1) }

/-! ### The transcoder -/

/-- R223: with `w = {hi, lo}`, bits 2i+1 and 2i of `w` are bit i of the input byte. R228: the expansion is injective and inverted by its odd bits; exactly sixteen byte values can appear
in it, those whose aligned bit pairs are equal; `hi` depends on the high nibble alone and `lo` on the low
one. -/
def Obligations.ExpandProperties : Prop :=
  (∀ (b : Byte) (i : Nat), i < 8 →
    let w : BitVec 16 := (expand b).1 ++ (expand b).2
    w.getLsbD (2 * i + 1) = b.getLsbD i ∧ w.getLsbD (2 * i) = b.getLsbD i) ∧
  (∀ b : Byte, collapse (expand b).1 (expand b).2 = b) ∧
  (∀ b c : Byte, expand b = expand c → b = c) ∧
  (∀ v : Byte, (∃ b, (expand b).1 = v) ↔
    ∀ j < 4, v.getLsbD (2 * j + 1) = v.getLsbD (2 * j)) ∧
  (∀ v : Byte, (∃ b, (expand b).2 = v) ↔
    ∀ j < 4, v.getLsbD (2 * j + 1) = v.getLsbD (2 * j)) ∧
  (∀ b c : Byte, b.extractLsb' 4 4 = c.extractLsb' 4 4 → (expand b).1 = (expand c).1) ∧
  ∀ b c : Byte, b.extractLsb' 0 4 = c.extractLsb' 0 4 → (expand b).2 = (expand c).2

/-- R224: the black payload has two bytes per plane byte, `hi` at 2i and `lo` at 2i+1, so 2N bytes for a
plane, whatever its contents. -/
def Obligations.BlackPayloadLayout : Prop :=
  (∀ fb : List Byte, (blackWire fb).length = 2 * fb.length) ∧
  (∀ (fb : List Byte) (i : Nat) (h : i < fb.length),
    (blackWire fb)[2 * i]? = some (spread (fb[i].extractLsb' 4 4)) ∧
    (blackWire fb)[2 * i + 1]? = some (spread (fb[i].extractLsb' 0 4))) ∧
  (∀ m : Memory, (blackWire (Memory.bytes m)).length = 10000) ∧
  ∀ b ∈ blackWire (Memory.bytes []), b = 0x00

/-- R225: the red payload is the red plane verbatim, N bytes, and those bytes are what transmission-2
sends as data, whatever transmission-1 sent. -/
def Obligations.RedPayloadVerbatim : Prop :=
  (∀ m : Memory, redWire (Memory.bytes m) = (List.range 5000).map (Memory.read m) ∧
    (redWire (Memory.bytes m)).length = 5000) ∧
  ∀ (black : List Byte) (m : Memory),
    progEvents (transmit black (redWire (Memory.bytes m))) [] =
      transmitEvents black ((List.range 5000).map (Memory.read m))

/-- R52, R54, R222, R229: as bits in the order they are sent, the black payload is every pixel twice and
the red payload every pixel once, both in row-major order. -/
def Obligations.PixelsOnTheWire : Prop :=
  ∀ m : Memory,
    (blackWire (Memory.bytes m)).flatMap serialBits = (pixelsRowMajor m).flatMap (fun p => [p, p]) ∧
    (redWire (Memory.bytes m)).flatMap serialBits = pixelsRowMajor m

/-! ### The host's ports -/

/-- FBW while idle writes exactly that byte; no other byte and nothing else of the state changes, `dirty`
included (R55, R255).
The canonical form is the model's own. -/
def Obligations.FramebufferWrite : Prop :=
  ∀ (s : State) (p : Plane) (i : Nat) (v : Byte) (turns : List HostTurn),
    s.host = .act (.fbw (.plane p) i v) :: turns → s.op = none → i < 5000 →
    Memory.wf (s.plane p) = true →
    ∃ t, step s = .next t ∧
      Memory.read (t.plane p) i = v ∧
      (∀ j, j ≠ i → Memory.read (t.plane p) j = Memory.read (s.plane p) j) ∧
      (∀ q, q ≠ p → t.plane q = s.plane q) ∧
      Memory.wf (t.plane p) = true ∧
      t = { s with fbBlack := t.fbBlack, fbRed := t.fbRed, host := turns }

/-- FBR returns the byte at any time and changes nothing (R55, R57).
Where a read's value goes is the model's own: log entry 2. -/
def Obligations.FramebufferRead : Prop :=
  ∀ (s : State) (p : Plane) (i : Nat) (turns : List HostTurn),
    s.host = .act (.fbr (.plane p) i) :: turns → i < 5000 →
    step s = .next { s with
      host := turns
      hostReads := s.hostReads ++ [.byte (Memory.read (s.plane p) i)] }

/-- An address that does not exist is refused, idle or in flight, and changes nothing else: the index is
checked before the race (R55, R277). -/
def Obligations.BadIndexRefused : Prop :=
  ∀ (s : State) (p : PlaneSel) (i : Nat) (v : Byte) (turns : List HostTurn),
    (∃ n, p = .other n) ∨ 5000 ≤ i →
    (s.host = .act (.fbw p i v) :: turns → step s = .next { s with host := turns, refused := true }) ∧
    (s.host = .act (.fbr p i) :: turns → step s = .next { s with host := turns, refused := true })

/-- R273: a host write while an operation is in flight does not happen and records HOST_RACE. -/
def Obligations.HostRaceFaults : Prop :=
  ∀ (s : State) (p : Plane) (i : Nat) (v : Byte) (d : Bool) (turns : List HostTurn),
    s.op.isSome = true → i < 5000 →
    (s.host = .act (.fbw (.plane p) i v) :: turns →
      step s = .next { s with host := turns, fault := some .hostRace }) ∧
    (s.host = .act (.dirtyWrite d) :: turns →
      step s = .next { s with host := turns, fault := some .hostRace })

/-- The dirty port, while idle, writes either value and nothing else; the dirty read returns the flag at
any time (R253, R255).
Where a read's value goes is the model's own: log entry 2. -/
def Obligations.DirtyPort : Prop :=
  ∀ (s : State) (v : Bool) (turns : List HostTurn),
    (s.op = none → s.host = .act (.dirtyWrite v) :: turns →
      step s = .next { s with host := turns, dirty := v }) ∧
    (s.host = .act .dirtyRead :: turns →
      step s = .next { s with host := turns, hostReads := s.hostReads ++ [.dirty s.dirty] })

/-- R24: the nine phase codes. R35: the fields of the status word, its value at block reset, and the host
write that has no effect. -/
def Obligations.StatusWordLayout : Prop :=
  (phaseCode .uninitialized = 0 ∧ phaseCode .resetting = 1 ∧ phaseCode .initializing = 2 ∧
    phaseCode .ready = 3 ∧ phaseCode .transmittingBlack = 4 ∧ phaseCode .transmittingRed = 5 ∧
    phaseCode .refreshing = 6 ∧ phaseCode .waitingBusy = 7 ∧ phaseCode .sleeping = 8) ∧
  (∀ s : State, s.statusWord.extractLsb' 0 4 = phaseCode s.phase ∧
    s.statusWord.getLsbD 4 = (s.op == none) ∧ s.statusWord.getLsbD 5 = s.dirty ∧
    s.statusWord.getLsbD 6 = s.fault.isSome ∧ s.statusWord.getLsbD 7 = s.refused) ∧
  State.reset.statusWord = 0x30 ∧
  ∀ (s : State) (v : Byte) (turns : List HostTurn), s.host = .act (.statusWrite v) :: turns →
    step s = .next { s with host := turns }

/-- R256: STATUS returns the status word of the current state at any time and has no effect; so does the
read of the responses (R253).
Where a read's value goes is the model's own: log entry 2. -/
def Obligations.StatusRead : Prop :=
  ∀ (s : State) (turns : List HostTurn),
    (s.host = .act .status :: turns →
      step s = .next { s with host := turns, hostReads := s.hostReads ++ [.status s.statusWord] }) ∧
    (s.host = .act .readResp :: turns →
      step s = .next { s with host := turns, hostReads := s.hostReads ++ [.responses s.resp] })

/-- FILL writes every byte of its plane and no byte of the other (R92, R93).
FILL as turns is the model's own: log entry 1. -/
def Obligations.FillWritesPlane : Prop :=
  ∀ (s : State) (p : Plane) (v : Byte) (turns : List HostTurn),
    s.host = fill p v ++ turns → s.op = none → Memory.wf (s.plane p) = true →
    ∃ t, Sys2Proof.core.run 5000 s = .next t ∧
      (∀ i < 5000, Memory.read (t.plane p) i = v) ∧ (∀ q, q ≠ p → t.plane q = s.plane q) ∧
      t = { s with fbBlack := t.fbBlack, fbRed := t.fbRed, host := turns }

/-! ### Reset -/

/-- R39: the state at block reset, and the same with seeded planes (R300). -/
def Obligations.BlockReset : Prop :=
  (∀ i, Memory.read State.reset.fbBlack i = 0x00 ∧ Memory.read State.reset.fbRed i = 0x00) ∧
  State.reset.dirty = true ∧ State.reset.phase = .uninitialized ∧ State.reset.op = none ∧
  State.reset.prog = [] ∧ State.reset.rst = .unknown ∧ State.reset.dc = .unknown ∧
  State.reset.events = [] ∧ State.reset.resp = [] ∧ State.reset.pending = none ∧
  State.reset.fault = none ∧ State.reset.refused = false ∧ State.reset.statusWord = 0x30 ∧
  ∀ black red : Memory,
    State.resetSeeded black red = { State.reset with fbBlack := black, fbRed := red }

/-- Every invariant below holds at block reset, whatever canonical planes the caller seeds. -/
def Obligations.InvariantsAtReset : Prop :=
  ∀ black red : Memory, Memory.wf black = true → Memory.wf red = true →
    let s := State.resetSeeded black red
    ControlInv s ∧ PlanesInv s ∧ PinsInv s ∧ FreshInv s ∧ tagsFollowGraph s.prog = true ∧
    feedsFollowWaits none (s.events ++ progEvents s.prog []) = true ∧
    ControlInv State.reset ∧ PlanesInv State.reset ∧ PinsInv State.reset ∧ FreshInv State.reset

/-! ### What every step keeps -/

/-- The sequencer's state stays coherent: nothing in flight exactly when the program is empty, the phase
a legal one and equal to the head's tag, deep-sleep in no program (R24, R25, R26, R193, R196). -/
def Obligations.ControlInvKept : Prop :=
  ∀ s t : State, ControlInv s → step s = .next t → ControlInv t

/-- A step from a coherent state always answers a next state: no operation, request, access or misuse
stops the machine (R271, R272, R274).
That a turn with no step answers the state, that a stalled unit answers its own state and that misuse is
a mark in a next state are the model's: log entries 10, 4 and 16. -/
def Obligations.CoherentStateSteps : Prop :=
  ∀ s : State, ControlInv s → ∃ t, step s = .next t

/-- Both planes stay in canonical form with every address below N (R51, R55).
The canonical form is the model's own. -/
def Obligations.PlanesInvKept : Prop :=
  ∀ s t : State, PlanesInv s → step s = .next t → PlanesInv t

/-- The reset and D/C lines hold what the last event that drives them left (R30). -/
def Obligations.PinsInvKept : Prop :=
  ∀ s t : State, PinsInv s → step s = .next t → PinsInv t

/-- Before the first INIT the block has only sampled BUSY and answered it (R241 row 4, R24). -/
def Obligations.FreshInvKept : Prop :=
  ∀ s t : State, ControlInv s → FreshInv s → step s = .next t → FreshInv t

/-- R193: every step stays in its phase or follows an arrow of the phase graph, and the rest of the
program does too. -/
def Obligations.PhaseGraphFollowed : Prop :=
  ∀ s t : State, ControlInv s → tagsFollowGraph s.prog = true → step s = .next t →
    tagsFollowGraph t.prog = true ∧ (t.phase = s.phase ∨ phaseArrow s.phase t.phase = true)

/-- R284: the watchdog is fed only right after a poll wait or a sleep hold, in the trace so far and in
what the program in flight will add when the panel is not busy. -/
def Obligations.FeedsFollowWaitsKept : Prop :=
  ∀ s t : State, ControlInv s →
    feedsFollowWaits none (s.events ++ progEvents s.prog []) = true → step s = .next t →
    feedsFollowWaits none (t.events ++ progEvents t.prog []) = true

/-- What a step can add to the trace, from any state (R21, R116, R172, R196): at most one event; a wire
event only from the micro-action at the head of the program, never from the host's action; and never
deep-sleep. -/
def Obligations.TraceGrowth : Prop :=
  ∀ s t : State, step s = .next t →
    t.trace = s.trace ∨
    ∃ e, t.trace = e :: s.trace ∧ e ≠ .cmd 0x07 ∧
      (∀ b, e = .cmd b → (∃ ph c rest, s.prog = (ph, .cmd c) :: rest ∧ b = Config.opcode c) ∧
        ∀ a turns, s.host ≠ .act a :: turns) ∧
      (∀ b, e = .data b → (∃ ph rest, s.prog = (ph, .dat b) :: rest) ∧
        ∀ a turns, s.host ≠ .act a :: turns)

/-- While an operation is in flight no step changes a plane; and the block's own turn never does (R27,
R55, R257).
Turns are the model's own: log entry 1. -/
def Obligations.PlanesKeptInFlight : Prop :=
  (∀ s t : State, s.op.isSome = true → step s = .next t →
    t.fbBlack = s.fbBlack ∧ t.fbRed = s.fbRed) ∧
  ∀ (s t : State) (turns : List HostTurn), s.blockTurn turns → step s = .next t →
    t.fbBlack = s.fbBlack ∧ t.fbRed = s.fbRed

/-- A program in flight depends neither on the planes nor on `dirty` (R170, R23): two states that differ
only there step to states that differ only there.
Turns are the model's own: log entry 1. -/
def Obligations.SequencerIgnoresPlanes : Prop :=
  ∀ (s t : State) (black red : Memory) (d : Bool) (turns : List HostTurn),
    s.blockTurn turns → s.prog ≠ [] → step s = .next t →
    ∃ d', step { s with fbBlack := black, fbRed := red, dirty := d } =
      .next { t with fbBlack := black, fbRed := red, dirty := d' }

/-- A faulted block is quiescent (R271): no step changes program, operation, phase, trace, responses or
the fault, and none changes a plane or `dirty` while the operation is in flight. -/
def Obligations.FaultFreezes : Prop :=
  ∀ (s t : State) (r : Fault), s.fault = some r → step s = .next t →
    t.prog = s.prog ∧ t.op = s.op ∧ t.phase = s.phase ∧ t.trace = s.trace ∧ t.resp = s.resp ∧
    t.fault = some r ∧ t.rst = s.rst ∧ t.dc = s.dc ∧
    (s.op.isSome = true → t.fbBlack = s.fbBlack ∧ t.fbRed = s.fbRed ∧ t.dirty = s.dirty)

/-- R37: the marks are never cleared, and responses are never removed. -/
def Obligations.MarksNeverCleared : Prop :=
  ∀ s t : State, step s = .next t →
    (∀ r, s.fault = some r → t.fault = some r) ∧ (s.refused = true → t.refused = true) ∧
    ∃ more, t.resp = s.resp ++ more
end

