-- ==== Sys2Proof/Laws/State.lean ====
section
/-! SUPPORT. One lemma per field per update of the state, each true by unfolding, so that no later proof
unfolds a record update. -/

namespace Sys2Proof.Machine

/-! ### emit -/

@[simp] theorem State.emit_fbBlack (s : State) (e : Event) : (s.emit e).fbBlack = s.fbBlack := rfl
@[simp] theorem State.emit_fbRed (s : State) (e : Event) : (s.emit e).fbRed = s.fbRed := rfl
@[simp] theorem State.emit_dirty (s : State) (e : Event) : (s.emit e).dirty = s.dirty := rfl
@[simp] theorem State.emit_phase (s : State) (e : Event) : (s.emit e).phase = s.phase := rfl
@[simp] theorem State.emit_op (s : State) (e : Event) : (s.emit e).op = s.op := rfl
@[simp] theorem State.emit_prog (s : State) (e : Event) : (s.emit e).prog = s.prog := rfl
@[simp] theorem State.emit_rst (s : State) (e : Event) : (s.emit e).rst = s.rst := rfl
@[simp] theorem State.emit_dc (s : State) (e : Event) : (s.emit e).dc = s.dc := rfl
@[simp] theorem State.emit_trace (s : State) (e : Event) : (s.emit e).trace = e :: s.trace := rfl
@[simp] theorem State.emit_resp (s : State) (e : Event) : (s.emit e).resp = s.resp := rfl
@[simp] theorem State.emit_pending (s : State) (e : Event) : (s.emit e).pending = s.pending := rfl
@[simp] theorem State.emit_fault (s : State) (e : Event) : (s.emit e).fault = s.fault := rfl
@[simp] theorem State.emit_refused (s : State) (e : Event) : (s.emit e).refused = s.refused := rfl
@[simp] theorem State.emit_host (s : State) (e : Event) : (s.emit e).host = s.host := rfl
@[simp] theorem State.emit_hostReads (s : State) (e : Event) : (s.emit e).hostReads = s.hostReads := rfl
@[simp] theorem State.emit_busyIn (s : State) (e : Event) : (s.emit e).busyIn = s.busyIn := rfl
@[simp] theorem State.emit_draws (s : State) (e : Event) : (s.emit e).draws = s.draws := rfl
@[simp] theorem State.emit_stallIn (s : State) (e : Event) : (s.emit e).stallIn = s.stallIn := rfl

/-! ### sampled -/

@[simp] theorem State.sampled_fbBlack (s : State) : (s.sampled).fbBlack = s.fbBlack := rfl
@[simp] theorem State.sampled_fbRed (s : State) : (s.sampled).fbRed = s.fbRed := rfl
@[simp] theorem State.sampled_dirty (s : State) : (s.sampled).dirty = s.dirty := rfl
@[simp] theorem State.sampled_phase (s : State) : (s.sampled).phase = s.phase := rfl
@[simp] theorem State.sampled_op (s : State) : (s.sampled).op = s.op := rfl
@[simp] theorem State.sampled_prog (s : State) : (s.sampled).prog = s.prog := rfl
@[simp] theorem State.sampled_rst (s : State) : (s.sampled).rst = s.rst := rfl
@[simp] theorem State.sampled_dc (s : State) : (s.sampled).dc = s.dc := rfl
@[simp] theorem State.sampled_trace (s : State) : (s.sampled).trace = .sample s.busyLevel :: s.trace := rfl
@[simp] theorem State.sampled_resp (s : State) : (s.sampled).resp = s.resp := rfl
@[simp] theorem State.sampled_pending (s : State) : (s.sampled).pending = s.pending := rfl
@[simp] theorem State.sampled_fault (s : State) : (s.sampled).fault = s.fault := rfl
@[simp] theorem State.sampled_refused (s : State) : (s.sampled).refused = s.refused := rfl
@[simp] theorem State.sampled_host (s : State) : (s.sampled).host = s.host := rfl
@[simp] theorem State.sampled_hostReads (s : State) : (s.sampled).hostReads = s.hostReads := rfl
@[simp] theorem State.sampled_busyIn (s : State) : (s.sampled).busyIn = s.busyIn.tail := rfl
@[simp] theorem State.sampled_draws (s : State) : (s.sampled).draws = s.draws + 1 := rfl
@[simp] theorem State.sampled_stallIn (s : State) : (s.sampled).stallIn = s.stallIn := rfl

/-! ### refuse -/

@[simp] theorem State.refuse_fbBlack (s : State) (r : RefuseReason) : (s.refuse r).fbBlack = s.fbBlack := rfl
@[simp] theorem State.refuse_fbRed (s : State) (r : RefuseReason) : (s.refuse r).fbRed = s.fbRed := rfl
@[simp] theorem State.refuse_dirty (s : State) (r : RefuseReason) : (s.refuse r).dirty = s.dirty := rfl
@[simp] theorem State.refuse_phase (s : State) (r : RefuseReason) : (s.refuse r).phase = s.phase := rfl
@[simp] theorem State.refuse_op (s : State) (r : RefuseReason) : (s.refuse r).op = s.op := rfl
@[simp] theorem State.refuse_prog (s : State) (r : RefuseReason) : (s.refuse r).prog = s.prog := rfl
@[simp] theorem State.refuse_rst (s : State) (r : RefuseReason) : (s.refuse r).rst = s.rst := rfl
@[simp] theorem State.refuse_dc (s : State) (r : RefuseReason) : (s.refuse r).dc = s.dc := rfl
@[simp] theorem State.refuse_trace (s : State) (r : RefuseReason) : (s.refuse r).trace = s.trace := rfl
@[simp] theorem State.refuse_resp (s : State) (r : RefuseReason) : (s.refuse r).resp = s.resp := rfl
@[simp] theorem State.refuse_pending (s : State) (r : RefuseReason) : (s.refuse r).pending = s.pending := rfl
@[simp] theorem State.refuse_fault (s : State) (r : RefuseReason) : (s.refuse r).fault = s.fault := rfl
@[simp] theorem State.refuse_refused (s : State) (r : RefuseReason) : (s.refuse r).refused = true := rfl
@[simp] theorem State.refuse_host (s : State) (r : RefuseReason) : (s.refuse r).host = s.host := rfl
@[simp] theorem State.refuse_hostReads (s : State) (r : RefuseReason) : (s.refuse r).hostReads = s.hostReads := rfl
@[simp] theorem State.refuse_busyIn (s : State) (r : RefuseReason) : (s.refuse r).busyIn = s.busyIn := rfl
@[simp] theorem State.refuse_draws (s : State) (r : RefuseReason) : (s.refuse r).draws = s.draws := rfl
@[simp] theorem State.refuse_stallIn (s : State) (r : RefuseReason) : (s.refuse r).stallIn = s.stallIn := rfl

/-! ### hold -/

@[simp] theorem State.hold_fbBlack (s : State) (q : BitVec 3) : (s.hold q).fbBlack = s.fbBlack := rfl
@[simp] theorem State.hold_fbRed (s : State) (q : BitVec 3) : (s.hold q).fbRed = s.fbRed := rfl
@[simp] theorem State.hold_dirty (s : State) (q : BitVec 3) : (s.hold q).dirty = s.dirty := rfl
@[simp] theorem State.hold_phase (s : State) (q : BitVec 3) : (s.hold q).phase = s.phase := rfl
@[simp] theorem State.hold_op (s : State) (q : BitVec 3) : (s.hold q).op = s.op := rfl
@[simp] theorem State.hold_prog (s : State) (q : BitVec 3) : (s.hold q).prog = s.prog := rfl
@[simp] theorem State.hold_rst (s : State) (q : BitVec 3) : (s.hold q).rst = s.rst := rfl
@[simp] theorem State.hold_dc (s : State) (q : BitVec 3) : (s.hold q).dc = s.dc := rfl
@[simp] theorem State.hold_trace (s : State) (q : BitVec 3) : (s.hold q).trace = s.trace := rfl
@[simp] theorem State.hold_resp (s : State) (q : BitVec 3) : (s.hold q).resp = s.resp := rfl
@[simp] theorem State.hold_pending (s : State) (q : BitVec 3) : (s.hold q).pending = some q := rfl
@[simp] theorem State.hold_fault (s : State) (q : BitVec 3) : (s.hold q).fault = s.fault := rfl
@[simp] theorem State.hold_refused (s : State) (q : BitVec 3) : (s.hold q).refused = s.refused := rfl
@[simp] theorem State.hold_host (s : State) (q : BitVec 3) : (s.hold q).host = s.host := rfl
@[simp] theorem State.hold_hostReads (s : State) (q : BitVec 3) : (s.hold q).hostReads = s.hostReads := rfl
@[simp] theorem State.hold_busyIn (s : State) (q : BitVec 3) : (s.hold q).busyIn = s.busyIn := rfl
@[simp] theorem State.hold_draws (s : State) (q : BitVec 3) : (s.hold q).draws = s.draws := rfl
@[simp] theorem State.hold_stallIn (s : State) (q : BitVec 3) : (s.hold q).stallIn = s.stallIn := rfl

/-! ### start -/

@[simp] theorem State.start_fbBlack (s : State) (o : Op) (p : Prog) : (s.start o p).fbBlack = s.fbBlack := rfl
@[simp] theorem State.start_fbRed (s : State) (o : Op) (p : Prog) : (s.start o p).fbRed = s.fbRed := rfl
@[simp] theorem State.start_dirty (s : State) (o : Op) (p : Prog) : (s.start o p).dirty = s.dirty := rfl
@[simp] theorem State.start_op (s : State) (o : Op) (p : Prog) : (s.start o p).op = some o := rfl
@[simp] theorem State.start_prog (s : State) (o : Op) (p : Prog) : (s.start o p).prog = p := rfl
@[simp] theorem State.start_rst (s : State) (o : Op) (p : Prog) : (s.start o p).rst = s.rst := rfl
@[simp] theorem State.start_dc (s : State) (o : Op) (p : Prog) : (s.start o p).dc = s.dc := rfl
@[simp] theorem State.start_trace (s : State) (o : Op) (p : Prog) : (s.start o p).trace = s.trace := rfl
@[simp] theorem State.start_resp (s : State) (o : Op) (p : Prog) : (s.start o p).resp = s.resp := rfl
@[simp] theorem State.start_pending (s : State) (o : Op) (p : Prog) : (s.start o p).pending = none := rfl
@[simp] theorem State.start_fault (s : State) (o : Op) (p : Prog) : (s.start o p).fault = s.fault := rfl
@[simp] theorem State.start_refused (s : State) (o : Op) (p : Prog) : (s.start o p).refused = s.refused := rfl
@[simp] theorem State.start_host (s : State) (o : Op) (p : Prog) : (s.start o p).host = s.host := rfl
@[simp] theorem State.start_hostReads (s : State) (o : Op) (p : Prog) : (s.start o p).hostReads = s.hostReads := rfl
@[simp] theorem State.start_busyIn (s : State) (o : Op) (p : Prog) : (s.start o p).busyIn = s.busyIn := rfl
@[simp] theorem State.start_draws (s : State) (o : Op) (p : Prog) : (s.start o p).draws = s.draws := rfl
@[simp] theorem State.start_stallIn (s : State) (o : Op) (p : Prog) : (s.start o p).stallIn = s.stallIn := rfl

/-! ### pop -/

@[simp] theorem State.pop_fbBlack (s : State) (p : Prog) : (s.pop p).fbBlack = s.fbBlack := rfl
@[simp] theorem State.pop_fbRed (s : State) (p : Prog) : (s.pop p).fbRed = s.fbRed := rfl
@[simp] theorem State.pop_dirty (s : State) (p : Prog) : (s.pop p).dirty = s.dirty := rfl
@[simp] theorem State.pop_phase (s : State) (p : Prog) : (s.pop p).phase = s.phase := rfl
@[simp] theorem State.pop_op (s : State) (p : Prog) : (s.pop p).op = s.op := rfl
@[simp] theorem State.pop_prog (s : State) (p : Prog) : (s.pop p).prog = p := rfl
@[simp] theorem State.pop_rst (s : State) (p : Prog) : (s.pop p).rst = s.rst := rfl
@[simp] theorem State.pop_dc (s : State) (p : Prog) : (s.pop p).dc = s.dc := rfl
@[simp] theorem State.pop_trace (s : State) (p : Prog) : (s.pop p).trace = s.trace := rfl
@[simp] theorem State.pop_resp (s : State) (p : Prog) : (s.pop p).resp = s.resp := rfl
@[simp] theorem State.pop_pending (s : State) (p : Prog) : (s.pop p).pending = s.pending := rfl
@[simp] theorem State.pop_fault (s : State) (p : Prog) : (s.pop p).fault = s.fault := rfl
@[simp] theorem State.pop_refused (s : State) (p : Prog) : (s.pop p).refused = s.refused := rfl
@[simp] theorem State.pop_host (s : State) (p : Prog) : (s.pop p).host = s.host := rfl
@[simp] theorem State.pop_hostReads (s : State) (p : Prog) : (s.pop p).hostReads = s.hostReads := rfl
@[simp] theorem State.pop_busyIn (s : State) (p : Prog) : (s.pop p).busyIn = s.busyIn := rfl
@[simp] theorem State.pop_draws (s : State) (p : Prog) : (s.pop p).draws = s.draws := rfl
@[simp] theorem State.pop_stallIn (s : State) (p : Prog) : (s.pop p).stallIn = s.stallIn := rfl

/-! ### driveReset -/

@[simp] theorem State.driveReset_fbBlack (s : State) (l : Level) : (s.driveReset l).fbBlack = s.fbBlack := rfl
@[simp] theorem State.driveReset_fbRed (s : State) (l : Level) : (s.driveReset l).fbRed = s.fbRed := rfl
@[simp] theorem State.driveReset_dirty (s : State) (l : Level) : (s.driveReset l).dirty = s.dirty := rfl
@[simp] theorem State.driveReset_phase (s : State) (l : Level) : (s.driveReset l).phase = s.phase := rfl
@[simp] theorem State.driveReset_op (s : State) (l : Level) : (s.driveReset l).op = s.op := rfl
@[simp] theorem State.driveReset_prog (s : State) (l : Level) : (s.driveReset l).prog = s.prog := rfl
@[simp] theorem State.driveReset_rst (s : State) (l : Level) : (s.driveReset l).rst = .driven l := rfl
@[simp] theorem State.driveReset_dc (s : State) (l : Level) : (s.driveReset l).dc = s.dc := rfl
@[simp] theorem State.driveReset_trace (s : State) (l : Level) : (s.driveReset l).trace = .rst l :: s.trace := rfl
@[simp] theorem State.driveReset_resp (s : State) (l : Level) : (s.driveReset l).resp = s.resp := rfl
@[simp] theorem State.driveReset_pending (s : State) (l : Level) : (s.driveReset l).pending = s.pending := rfl
@[simp] theorem State.driveReset_fault (s : State) (l : Level) : (s.driveReset l).fault = s.fault := rfl
@[simp] theorem State.driveReset_refused (s : State) (l : Level) : (s.driveReset l).refused = s.refused := rfl
@[simp] theorem State.driveReset_host (s : State) (l : Level) : (s.driveReset l).host = s.host := rfl
@[simp] theorem State.driveReset_hostReads (s : State) (l : Level) : (s.driveReset l).hostReads = s.hostReads := rfl
@[simp] theorem State.driveReset_busyIn (s : State) (l : Level) : (s.driveReset l).busyIn = s.busyIn := rfl
@[simp] theorem State.driveReset_draws (s : State) (l : Level) : (s.driveReset l).draws = s.draws := rfl
@[simp] theorem State.driveReset_stallIn (s : State) (l : Level) : (s.driveReset l).stallIn = s.stallIn := rfl

/-! ### clearDirty -/

@[simp] theorem State.clearDirty_fbBlack (s : State) : (s.clearDirty).fbBlack = s.fbBlack := rfl
@[simp] theorem State.clearDirty_fbRed (s : State) : (s.clearDirty).fbRed = s.fbRed := rfl
@[simp] theorem State.clearDirty_dirty (s : State) : (s.clearDirty).dirty = false := rfl
@[simp] theorem State.clearDirty_phase (s : State) : (s.clearDirty).phase = s.phase := rfl
@[simp] theorem State.clearDirty_op (s : State) : (s.clearDirty).op = s.op := rfl
@[simp] theorem State.clearDirty_prog (s : State) : (s.clearDirty).prog = s.prog := rfl
@[simp] theorem State.clearDirty_rst (s : State) : (s.clearDirty).rst = s.rst := rfl
@[simp] theorem State.clearDirty_dc (s : State) : (s.clearDirty).dc = s.dc := rfl
@[simp] theorem State.clearDirty_trace (s : State) : (s.clearDirty).trace = s.trace := rfl
@[simp] theorem State.clearDirty_resp (s : State) : (s.clearDirty).resp = s.resp := rfl
@[simp] theorem State.clearDirty_pending (s : State) : (s.clearDirty).pending = s.pending := rfl
@[simp] theorem State.clearDirty_fault (s : State) : (s.clearDirty).fault = s.fault := rfl
@[simp] theorem State.clearDirty_refused (s : State) : (s.clearDirty).refused = s.refused := rfl
@[simp] theorem State.clearDirty_host (s : State) : (s.clearDirty).host = s.host := rfl
@[simp] theorem State.clearDirty_hostReads (s : State) : (s.clearDirty).hostReads = s.hostReads := rfl
@[simp] theorem State.clearDirty_busyIn (s : State) : (s.clearDirty).busyIn = s.busyIn := rfl
@[simp] theorem State.clearDirty_draws (s : State) : (s.clearDirty).draws = s.draws := rfl
@[simp] theorem State.clearDirty_stallIn (s : State) : (s.clearDirty).stallIn = s.stallIn := rfl

/-! ### writeDirty -/

@[simp] theorem State.writeDirty_fbBlack (s : State) (v : Bool) : (s.writeDirty v).fbBlack = s.fbBlack := rfl
@[simp] theorem State.writeDirty_fbRed (s : State) (v : Bool) : (s.writeDirty v).fbRed = s.fbRed := rfl
@[simp] theorem State.writeDirty_dirty (s : State) (v : Bool) : (s.writeDirty v).dirty = v := rfl
@[simp] theorem State.writeDirty_phase (s : State) (v : Bool) : (s.writeDirty v).phase = s.phase := rfl
@[simp] theorem State.writeDirty_op (s : State) (v : Bool) : (s.writeDirty v).op = s.op := rfl
@[simp] theorem State.writeDirty_prog (s : State) (v : Bool) : (s.writeDirty v).prog = s.prog := rfl
@[simp] theorem State.writeDirty_rst (s : State) (v : Bool) : (s.writeDirty v).rst = s.rst := rfl
@[simp] theorem State.writeDirty_dc (s : State) (v : Bool) : (s.writeDirty v).dc = s.dc := rfl
@[simp] theorem State.writeDirty_trace (s : State) (v : Bool) : (s.writeDirty v).trace = s.trace := rfl
@[simp] theorem State.writeDirty_resp (s : State) (v : Bool) : (s.writeDirty v).resp = s.resp := rfl
@[simp] theorem State.writeDirty_pending (s : State) (v : Bool) : (s.writeDirty v).pending = s.pending := rfl
@[simp] theorem State.writeDirty_fault (s : State) (v : Bool) : (s.writeDirty v).fault = s.fault := rfl
@[simp] theorem State.writeDirty_refused (s : State) (v : Bool) : (s.writeDirty v).refused = s.refused := rfl
@[simp] theorem State.writeDirty_host (s : State) (v : Bool) : (s.writeDirty v).host = s.host := rfl
@[simp] theorem State.writeDirty_hostReads (s : State) (v : Bool) : (s.writeDirty v).hostReads = s.hostReads := rfl
@[simp] theorem State.writeDirty_busyIn (s : State) (v : Bool) : (s.writeDirty v).busyIn = s.busyIn := rfl
@[simp] theorem State.writeDirty_draws (s : State) (v : Bool) : (s.writeDirty v).draws = s.draws := rfl
@[simp] theorem State.writeDirty_stallIn (s : State) (v : Bool) : (s.writeDirty v).stallIn = s.stallIn := rfl

/-! ### returns -/

@[simp] theorem State.returns_fbBlack (s : State) (v : HostValue) : (s.returns v).fbBlack = s.fbBlack := rfl
@[simp] theorem State.returns_fbRed (s : State) (v : HostValue) : (s.returns v).fbRed = s.fbRed := rfl
@[simp] theorem State.returns_dirty (s : State) (v : HostValue) : (s.returns v).dirty = s.dirty := rfl
@[simp] theorem State.returns_phase (s : State) (v : HostValue) : (s.returns v).phase = s.phase := rfl
@[simp] theorem State.returns_op (s : State) (v : HostValue) : (s.returns v).op = s.op := rfl
@[simp] theorem State.returns_prog (s : State) (v : HostValue) : (s.returns v).prog = s.prog := rfl
@[simp] theorem State.returns_rst (s : State) (v : HostValue) : (s.returns v).rst = s.rst := rfl
@[simp] theorem State.returns_dc (s : State) (v : HostValue) : (s.returns v).dc = s.dc := rfl
@[simp] theorem State.returns_trace (s : State) (v : HostValue) : (s.returns v).trace = s.trace := rfl
@[simp] theorem State.returns_resp (s : State) (v : HostValue) : (s.returns v).resp = s.resp := rfl
@[simp] theorem State.returns_pending (s : State) (v : HostValue) : (s.returns v).pending = s.pending := rfl
@[simp] theorem State.returns_fault (s : State) (v : HostValue) : (s.returns v).fault = s.fault := rfl
@[simp] theorem State.returns_refused (s : State) (v : HostValue) : (s.returns v).refused = s.refused := rfl
@[simp] theorem State.returns_host (s : State) (v : HostValue) : (s.returns v).host = s.host := rfl
@[simp] theorem State.returns_hostReads (s : State) (v : HostValue) : (s.returns v).hostReads = s.hostReads ++ [v] := rfl
@[simp] theorem State.returns_busyIn (s : State) (v : HostValue) : (s.returns v).busyIn = s.busyIn := rfl
@[simp] theorem State.returns_draws (s : State) (v : HostValue) : (s.returns v).draws = s.draws := rfl
@[simp] theorem State.returns_stallIn (s : State) (v : HostValue) : (s.returns v).stallIn = s.stallIn := rfl

/-! ### raiseFault -/

@[simp] theorem State.raiseFault_fbBlack (s : State) (r : Fault) : (s.raiseFault r).fbBlack = s.fbBlack := rfl
@[simp] theorem State.raiseFault_fbRed (s : State) (r : Fault) : (s.raiseFault r).fbRed = s.fbRed := rfl
@[simp] theorem State.raiseFault_dirty (s : State) (r : Fault) : (s.raiseFault r).dirty = s.dirty := rfl
@[simp] theorem State.raiseFault_phase (s : State) (r : Fault) : (s.raiseFault r).phase = s.phase := rfl
@[simp] theorem State.raiseFault_op (s : State) (r : Fault) : (s.raiseFault r).op = s.op := rfl
@[simp] theorem State.raiseFault_prog (s : State) (r : Fault) : (s.raiseFault r).prog = s.prog := rfl
@[simp] theorem State.raiseFault_rst (s : State) (r : Fault) : (s.raiseFault r).rst = s.rst := rfl
@[simp] theorem State.raiseFault_dc (s : State) (r : Fault) : (s.raiseFault r).dc = s.dc := rfl
@[simp] theorem State.raiseFault_trace (s : State) (r : Fault) : (s.raiseFault r).trace = s.trace := rfl
@[simp] theorem State.raiseFault_resp (s : State) (r : Fault) : (s.raiseFault r).resp = s.resp := rfl
@[simp] theorem State.raiseFault_pending (s : State) (r : Fault) : (s.raiseFault r).pending = s.pending := rfl
@[simp] theorem State.raiseFault_refused (s : State) (r : Fault) : (s.raiseFault r).refused = s.refused := rfl
@[simp] theorem State.raiseFault_host (s : State) (r : Fault) : (s.raiseFault r).host = s.host := rfl
@[simp] theorem State.raiseFault_hostReads (s : State) (r : Fault) : (s.raiseFault r).hostReads = s.hostReads := rfl
@[simp] theorem State.raiseFault_busyIn (s : State) (r : Fault) : (s.raiseFault r).busyIn = s.busyIn := rfl
@[simp] theorem State.raiseFault_draws (s : State) (r : Fault) : (s.raiseFault r).draws = s.draws := rfl
@[simp] theorem State.raiseFault_stallIn (s : State) (r : Fault) : (s.raiseFault r).stallIn = s.stallIn := rfl

/-! ### complete -/

@[simp] theorem State.complete_fbBlack (s : State) : (s.complete).fbBlack = s.fbBlack := rfl
@[simp] theorem State.complete_fbRed (s : State) : (s.complete).fbRed = s.fbRed := rfl
@[simp] theorem State.complete_dirty (s : State) : (s.complete).dirty = s.dirty := rfl
@[simp] theorem State.complete_phase (s : State) : (s.complete).phase = .ready := rfl
@[simp] theorem State.complete_op (s : State) : (s.complete).op = none := rfl
@[simp] theorem State.complete_prog (s : State) : (s.complete).prog = s.prog := rfl
@[simp] theorem State.complete_rst (s : State) : (s.complete).rst = s.rst := rfl
@[simp] theorem State.complete_dc (s : State) : (s.complete).dc = s.dc := rfl
@[simp] theorem State.complete_trace (s : State) : (s.complete).trace = s.trace := rfl
@[simp] theorem State.complete_pending (s : State) : (s.complete).pending = s.pending := rfl
@[simp] theorem State.complete_fault (s : State) : (s.complete).fault = s.fault := rfl
@[simp] theorem State.complete_refused (s : State) : (s.complete).refused = s.refused := rfl
@[simp] theorem State.complete_host (s : State) : (s.complete).host = s.host := rfl
@[simp] theorem State.complete_hostReads (s : State) : (s.complete).hostReads = s.hostReads := rfl
@[simp] theorem State.complete_busyIn (s : State) : (s.complete).busyIn = s.busyIn := rfl
@[simp] theorem State.complete_draws (s : State) : (s.complete).draws = s.draws := rfl
@[simp] theorem State.complete_stallIn (s : State) : (s.complete).stallIn = s.stallIn := rfl

@[simp] theorem State.start_phase_cons (s : State) (o : Op) (ph : Phase) (a : MicroAction) (p : Prog) :
    (s.start o ((ph, a) :: p)).phase = ph := rfl

theorem State.raiseFault_fault_none {s : State} (r : Fault) (h : s.fault = none) :
    (s.raiseFault r).fault = some r := by simp [State.raiseFault, h]

theorem State.raiseFault_fault_some {s : State} {r0 : Fault} (r : Fault) (h : s.fault = some r0) :
    (s.raiseFault r).fault = some r0 := by simp [State.raiseFault, h]

theorem State.complete_resp_some {s : State} {o : Op} (h : s.op = some o) :
    s.complete.resp = s.resp ++ [.done o] := by simp [State.complete, h]

/-! ### setPlane: one plane changes, nothing else does -/

@[simp] theorem State.setPlane_dirty (s : State) (p : Plane) (m : Memory) : (s.setPlane p m).dirty = s.dirty := by cases p <;> rfl
@[simp] theorem State.setPlane_phase (s : State) (p : Plane) (m : Memory) : (s.setPlane p m).phase = s.phase := by cases p <;> rfl
@[simp] theorem State.setPlane_op (s : State) (p : Plane) (m : Memory) : (s.setPlane p m).op = s.op := by cases p <;> rfl
@[simp] theorem State.setPlane_prog (s : State) (p : Plane) (m : Memory) : (s.setPlane p m).prog = s.prog := by cases p <;> rfl
@[simp] theorem State.setPlane_rst (s : State) (p : Plane) (m : Memory) : (s.setPlane p m).rst = s.rst := by cases p <;> rfl
@[simp] theorem State.setPlane_dc (s : State) (p : Plane) (m : Memory) : (s.setPlane p m).dc = s.dc := by cases p <;> rfl
@[simp] theorem State.setPlane_trace (s : State) (p : Plane) (m : Memory) : (s.setPlane p m).trace = s.trace := by cases p <;> rfl
@[simp] theorem State.setPlane_resp (s : State) (p : Plane) (m : Memory) : (s.setPlane p m).resp = s.resp := by cases p <;> rfl
@[simp] theorem State.setPlane_pending (s : State) (p : Plane) (m : Memory) : (s.setPlane p m).pending = s.pending := by cases p <;> rfl
@[simp] theorem State.setPlane_fault (s : State) (p : Plane) (m : Memory) : (s.setPlane p m).fault = s.fault := by cases p <;> rfl
@[simp] theorem State.setPlane_refused (s : State) (p : Plane) (m : Memory) : (s.setPlane p m).refused = s.refused := by cases p <;> rfl
@[simp] theorem State.setPlane_host (s : State) (p : Plane) (m : Memory) : (s.setPlane p m).host = s.host := by cases p <;> rfl
@[simp] theorem State.setPlane_hostReads (s : State) (p : Plane) (m : Memory) : (s.setPlane p m).hostReads = s.hostReads := by cases p <;> rfl
@[simp] theorem State.setPlane_busyIn (s : State) (p : Plane) (m : Memory) : (s.setPlane p m).busyIn = s.busyIn := by cases p <;> rfl
@[simp] theorem State.setPlane_draws (s : State) (p : Plane) (m : Memory) : (s.setPlane p m).draws = s.draws := by cases p <;> rfl
@[simp] theorem State.setPlane_stallIn (s : State) (p : Plane) (m : Memory) : (s.setPlane p m).stallIn = s.stallIn := by cases p <;> rfl
@[simp] theorem State.setPlane_plane_same (s : State) (p : Plane) (m : Memory) : (s.setPlane p m).plane p = m := by cases p <;> rfl
theorem State.setPlane_plane_other (s : State) {p q : Plane} (m : Memory) (h : q ≠ p) : (s.setPlane p m).plane q = s.plane q := by
  cases p <;> cases q <;> first | rfl | exact absurd rfl h

/-! ### settle: a step's end touches only phase, op and resp -/

@[simp] theorem State.settle_fbBlack (s : State) : s.settle.fbBlack = s.fbBlack := by unfold State.settle; split <;> rfl
@[simp] theorem State.settle_fbRed (s : State) : s.settle.fbRed = s.fbRed := by unfold State.settle; split <;> rfl
@[simp] theorem State.settle_dirty (s : State) : s.settle.dirty = s.dirty := by unfold State.settle; split <;> rfl
@[simp] theorem State.settle_prog (s : State) : s.settle.prog = s.prog := by unfold State.settle; split <;> rfl
@[simp] theorem State.settle_rst (s : State) : s.settle.rst = s.rst := by unfold State.settle; split <;> rfl
@[simp] theorem State.settle_dc (s : State) : s.settle.dc = s.dc := by unfold State.settle; split <;> rfl
@[simp] theorem State.settle_trace (s : State) : s.settle.trace = s.trace := by unfold State.settle; split <;> rfl
@[simp] theorem State.settle_pending (s : State) : s.settle.pending = s.pending := by unfold State.settle; split <;> rfl
@[simp] theorem State.settle_fault (s : State) : s.settle.fault = s.fault := by unfold State.settle; split <;> rfl
@[simp] theorem State.settle_refused (s : State) : s.settle.refused = s.refused := by unfold State.settle; split <;> rfl
@[simp] theorem State.settle_host (s : State) : s.settle.host = s.host := by unfold State.settle; split <;> rfl
@[simp] theorem State.settle_hostReads (s : State) : s.settle.hostReads = s.hostReads := by unfold State.settle; split <;> rfl
@[simp] theorem State.settle_busyIn (s : State) : s.settle.busyIn = s.busyIn := by unfold State.settle; split <;> rfl
@[simp] theorem State.settle_draws (s : State) : s.settle.draws = s.draws := by unfold State.settle; split <;> rfl
@[simp] theorem State.settle_stallIn (s : State) : s.settle.stallIn = s.stallIn := by unfold State.settle; split <;> rfl

theorem State.settle_nil {s : State} (h : s.prog = []) : s.settle = s.complete := by
  simp [State.settle, h]

theorem State.settle_cons {s : State} {ph : Phase} {a : MicroAction} {rest : Prog}
    (h : s.prog = (ph, a) :: rest) : s.settle = { s with phase := ph } := by
  simp [State.settle, h]

end Sys2Proof.Machine
end

