-- ==== Sys2Proof/Laws/Memory.lean ====
section
/-! SUPPORT. The laws of the framebuffer planes: read after write, and the canonical form kept. -/

namespace Sys2Proof.Machine

@[simp] theorem Memory.read_nil (i : Nat) : Memory.read [] i = Memory.unlisted := rfl

/-- Below its lowest address a canonical plane reads as unlisted. -/
theorem Memory.read_below {lo : Nat} {m : Memory} (h : Memory.wfFrom lo m = true) {i : Nat}
    (hi : i < lo) : Memory.read m i = Memory.unlisted := by
  induction m generalizing lo with
  | nil => rfl
  | cons c m ih =>
    obtain ⟨a, v⟩ := c
    simp only [Memory.wfFrom, Bool.and_eq_true, decide_eq_true_eq] at h
    have hne : i ≠ a := by omega
    simp only [Memory.read, hne, if_false]
    exact ih h.2 (by omega)

/-- The written byte reads back (00_scope.md R11). -/
theorem Memory.read_write_same {lo : Nat} {m : Memory} (h : Memory.wfFrom lo m = true) (i : Nat)
    (v : Byte) : Memory.read (Memory.write m i v) i = v := by
  induction m generalizing lo with
  | nil =>
    by_cases hv : v = Memory.unlisted <;> simp [Memory.write, Memory.read, hv]
  | cons c m ih =>
    obtain ⟨a, w⟩ := c
    simp only [Memory.wfFrom, Bool.and_eq_true, decide_eq_true_eq] at h
    rcases Nat.lt_trichotomy i a with hlt | heq | hgt
    · by_cases hv : v = Memory.unlisted
      · have hne : i ≠ a := by omega
        simp only [Memory.write, hlt, hv, if_true, Memory.read, hne, if_false]
        exact Memory.read_below h.2 (by omega)
      · simp [Memory.write, hlt, hv, Memory.read]
    · subst heq
      by_cases hv : v = Memory.unlisted
      · simp only [Memory.write, Nat.lt_irrefl, if_false, if_true, hv]
        exact Memory.read_below h.2 (by omega)
      · simp [Memory.write, hv, Memory.read]
    · have hn : ¬ i < a := by omega
      have hne : i ≠ a := by omega
      simp only [Memory.write, hn, hne, if_false, Memory.read]
      exact ih h.2

/-- Every other byte reads as before. -/
theorem Memory.read_write_other (m : Memory) {i j : Nat} (v : Byte) (h : j ≠ i) :
    Memory.read (Memory.write m i v) j = Memory.read m j := by
  induction m with
  | nil => by_cases hv : v = Memory.unlisted <;> simp [Memory.write, Memory.read, hv, h]
  | cons c m ih =>
    obtain ⟨a, w⟩ := c
    rcases Nat.lt_trichotomy i a with hlt | heq | hgt
    · by_cases hv : v = Memory.unlisted <;> simp [Memory.write, hlt, hv, Memory.read, h]
    · subst heq
      by_cases hv : v = Memory.unlisted <;> simp [Memory.write, hv, Memory.read, h]
    · have hn : ¬ i < a := by omega
      have hne : i ≠ a := by omega
      by_cases hj : j = a <;> simp [Memory.write, hn, hne, Memory.read, hj, ih]

/-- A canonical plane stays canonical from any lower bound. -/
theorem Memory.wfFrom_mono {lo lo' : Nat} {m : Memory} (h : Memory.wfFrom lo m = true)
    (hlo : lo' ≤ lo) : Memory.wfFrom lo' m = true := by
  cases m with
  | nil => rfl
  | cons c m =>
    obtain ⟨a, v⟩ := c
    simp only [Memory.wfFrom, Bool.and_eq_true, decide_eq_true_eq] at h ⊢
    exact ⟨⟨⟨by omega, h.1.1.2⟩, h.1.2⟩, h.2⟩

theorem Memory.wfFrom_write {lo : Nat} {m : Memory} (h : Memory.wfFrom lo m = true) {i : Nat}
    (v : Byte) (hlo : lo ≤ i) (hi : i < Config.planeBytes) :
    Memory.wfFrom lo (Memory.write m i v) = true := by
  induction m generalizing lo with
  | nil =>
    by_cases hv : v = Memory.unlisted
    · simp [Memory.write, hv, Memory.wfFrom]
    · simp [Memory.write, hv, Memory.wfFrom, hlo, hi]
  | cons c m ih =>
    obtain ⟨a, w⟩ := c
    have h' := h
    simp only [Memory.wfFrom, Bool.and_eq_true, decide_eq_true_eq] at h
    rcases Nat.lt_trichotomy i a with hlt | heq | hgt
    · by_cases hv : v = Memory.unlisted
      · simpa [Memory.write, hlt, hv] using h'
      · simp only [Memory.write, hlt, hv, if_true, if_false, Memory.wfFrom, Bool.and_eq_true,
          decide_eq_true_eq, bne_iff_ne, ne_eq, not_false_eq_true]
        refine ⟨⟨⟨hlo, hi⟩, trivial⟩, ⟨⟨by omega, h.1.1.2⟩, ?_⟩, h.2⟩
        simpa using h.1.2
    · subst heq
      by_cases hv : v = Memory.unlisted
      · simp only [Memory.write, Nat.lt_irrefl, if_false, if_true, hv]
        exact Memory.wfFrom_mono h.2 (by omega)
      · simp only [Memory.write, Nat.lt_irrefl, if_false, if_true, hv, Memory.wfFrom,
          Bool.and_eq_true, decide_eq_true_eq, bne_iff_ne, ne_eq, not_false_eq_true]
        exact ⟨⟨⟨hlo, hi⟩, trivial⟩, h.2⟩
    · have hn : ¬ i < a := by omega
      have hne : i ≠ a := by omega
      simp only [Memory.write, hn, hne, if_false, Memory.wfFrom, Bool.and_eq_true,
        decide_eq_true_eq]
      exact ⟨h.1, ih h.2 (by omega)⟩

/-- The one memory operation that changes a plane keeps the canonical form. -/
theorem Memory.wf_write {m : Memory} (h : Memory.wf m = true) {i : Nat} (v : Byte)
    (hi : i < Config.planeBytes) : Memory.wf (Memory.write m i v) = true :=
  Memory.wfFrom_write h v (Nat.zero_le i) hi

@[simp] theorem Memory.bytes_length (m : Memory) : (Memory.bytes m).length = Config.planeBytes := by
  simp [Memory.bytes]

theorem Memory.bytes_getElem (m : Memory) {i : Nat} (h : i < (Memory.bytes m).length) :
    (Memory.bytes m)[i] = Memory.read m i := by
  simp [Memory.bytes]

/-- The planes at block reset are canonical. -/
theorem reset_planes_wf :
    Memory.wf State.reset.fbBlack = true ∧ Memory.wf State.reset.fbRed = true := ⟨rfl, rfl⟩

end Sys2Proof.Machine
end

