-- ==== Sys2Proof/Laws/Ops.lean ====
section
/-! SUPPORT. What each shared operation and each step can do, said once. -/

namespace Sys2Proof.Machine

/-! ### The wire -/

theorem State.sendUnit_ready {s : State} (h : s.transportReady = true) (dc : Level) (e : Event) :
    s.sendUnit dc e =
      { s with trace := e :: s.trace, dc := .driven dc, stallIn := s.stallIn.map (· - 1) } := by
  simp [State.sendUnit, h, State.emit]

theorem State.sendUnit_stalled {s : State} (h : s.transportReady = false) (dc : Level) (e : Event) :
    s.sendUnit dc e = s := by
  simp [State.sendUnit, h]

@[simp] theorem State.transportReady_pop (s : State) (p : Prog) :
    (s.pop p).transportReady = s.transportReady := rfl

/-- With a ready transport a command unit runs `sendCommand`; deep-sleep has no step. -/
theorem exec_ofCommand (c : Command) (s : State) :
    exec (.ofCommand c) s =
      if c = .dslp then .refused .deepSleepNeverEmitted
      else .next (s.sendCommand (Config.opcode c)) := by
  cases c <;> rfl

@[simp] theorem exec_data (b : Byte) (s : State) : exec (.data b) s = .next (s.sendData b) := rfl

/-! ### Admission -/

/-- What an admission answers: held, refused, or what the accepting row does. -/
theorem State.admission_cases (s : State) (q : BitVec 3) (n : Bool) (t : State) :
    ((s.fault.isSome = true ∨ s.op.isSome = true) ∧ s.admission q n t = s.hold q) ∨
    (s.fault = none ∧ s.op = none ∧ n = true ∧ s.phase = .uninitialized ∧
      s.admission q n t = s.refuse .notInitialized) ∨
    (s.fault = none ∧ s.op = none ∧ (n = true → s.phase ≠ .uninitialized) ∧ s.admission q n t = t) := by
  unfold State.admission
  cases hf : s.fault <;> cases ho : s.op <;> simp
  by_cases hn : n = true
  · by_cases hp : s.phase = .uninitialized <;> simp [hn, hp]
  · simp [hn]

/-! ### The sequencer -/

/-- The state a quiet (not a wire) micro-action leaves, before the step settles. -/
def quietEffect (ph : Phase) (a : MicroAction) (rest : Prog) (s : State) : State :=
  match a with
  | .cfg => (s.pop rest).emit .cfg
  | .rstl l => (s.pop rest).driveReset l
  | .cmd _ => s
  | .dat _ => s
  | .wait t => (s.pop rest).emit (.wait t)
  | .feed => (s.pop rest).emit .feed
  | .waitBusy => s.waitBusy ph rest
  | .clearDirty => (s.pop rest).clearDirty

/-- What one micro-action can do, if it answers a next state: the transport keeps a wire unit waiting;
or a command or data unit is sent; or a quiet micro-action has its effect. -/
theorem microStep_cases {ph : Phase} {a : MicroAction} {rest : Prog} {s t : State}
    (h : microStep ph a rest s = .next t) :
    (((∃ c, a = .cmd c) ∨ ∃ b, a = .dat b) ∧ s.transportReady = false ∧ t = s) ∨
    (∃ c, a = .cmd c ∧ c ≠ .dslp ∧ s.transportReady = true ∧
      t = ((s.pop rest).sendCommand (Config.opcode c)).settle) ∨
    (∃ b, a = .dat b ∧ s.transportReady = true ∧ t = ((s.pop rest).sendData b).settle) ∨
    ((∀ c, a ≠ .cmd c) ∧ (∀ b, a ≠ .dat b) ∧ t = (quietEffect ph a rest s).settle) := by
  cases a with
  | cmd c =>
    simp only [microStep, unitStep] at h
    split at h
    · rw [exec_ofCommand] at h
      split at h
      · simp [settled] at h
      · simp only [settled, Host.Outcome.next.injEq] at h
        exact .inr (.inl ⟨c, rfl, by assumption, by assumption, h.symm⟩)
    · rename_i hr
      simp only [Host.Outcome.next.injEq] at h
      exact .inl ⟨.inl ⟨c, rfl⟩, by simpa using hr, h.symm⟩
  | dat b =>
    simp only [microStep, unitStep] at h
    split at h
    · simp only [exec_data, settled, Host.Outcome.next.injEq] at h
      exact .inr (.inr (.inl ⟨b, rfl, by assumption, h.symm⟩))
    · rename_i hr
      simp only [Host.Outcome.next.injEq] at h
      exact .inl ⟨.inr ⟨b, rfl⟩, by simpa using hr, h.symm⟩
  | _ =>
    simp only [microStep, Host.Outcome.next.injEq] at h
    exact .inr (.inr (.inr ⟨by simp, by simp, h.symm⟩))

/-- What a request code can do: it is reserved and refused, or its operation runs. -/
theorem requestStep_cases (q : BitVec 3) (s : State) :
    (reservedCode q = true ∧ requestStep q s = .next (s.refuse .reservedOp)) ∨
    (q = 1 ∧ requestStep q s = execInit s) ∨ (q = 2 ∧ requestStep q s = execUpdate s) ∨
    (q = 3 ∧ requestStep q s = execRefresh s) ∨ (q = 4 ∧ requestStep q s = execBlank s) ∨
    (q = 5 ∧ requestStep q s = execBusy s) := by
  have : q = 0 ∨ q = 1 ∨ q = 2 ∨ q = 3 ∨ q = 4 ∨ q = 5 ∨ q = 6 ∨ q = 7 := by
    revert q; decide
  rcases this with rfl | rfl | rfl | rfl | rfl | rfl | rfl | rfl
  · exact .inl ⟨by decide, rfl⟩
  · exact .inr (.inl ⟨rfl, rfl⟩)
  · exact .inr (.inr (.inl ⟨rfl, rfl⟩))
  · exact .inr (.inr (.inr (.inl ⟨rfl, rfl⟩)))
  · exact .inr (.inr (.inr (.inr (.inl ⟨rfl, rfl⟩))))
  · exact .inr (.inr (.inr (.inr (.inr ⟨rfl, rfl⟩))))
  · exact .inl ⟨by decide, rfl⟩
  · exact .inl ⟨by decide, rfl⟩

/-- What the block's turn can do, if it answers a next state. -/
theorem blockStep_cases {s t : State} (h : blockStep s = .next t) :
    (s.fault.isSome = true ∧ t = s) ∨
    (s.fault = none ∧ ∃ ph a rest, s.prog = (ph, a) :: rest ∧ microStep ph a rest s = .next t) ∨
    (s.fault = none ∧ s.prog = [] ∧ (s.op.isSome = true ∨ s.pending = none) ∧ t = s) ∨
    (s.fault = none ∧ s.prog = [] ∧ s.op = none ∧ ∃ q, s.pending = some q ∧
      requestStep q { s with pending := none } = .next t) := by
  unfold blockStep at h
  split at h
  · simp only [Host.Outcome.next.injEq] at h
    exact .inl ⟨by assumption, h.symm⟩
  · rename_i hf
    have hf : s.fault = none := by simpa using hf
    split at h
    · rename_i ph a rest hp
      exact .inr (.inl ⟨hf, ph, a, rest, hp, h⟩)
    · rename_i hp
      split at h
      · simp only [Host.Outcome.next.injEq] at h
        exact .inr (.inr (.inl ⟨hf, hp, .inl (by assumption), h.symm⟩))
      · rename_i ho
        have ho : s.op = none := by simpa using ho
        split at h
        · rename_i q hq
          exact .inr (.inr (.inr ⟨hf, hp, ho, q, hq, h⟩))
        · rename_i hq
          simp only [Host.Outcome.next.injEq] at h
          exact .inr (.inr (.inl ⟨hf, hp, .inr hq, h.symm⟩))

/-! ### The host -/

/-- What a framebuffer write can do (20_memory.md R55). -/
theorem State.fbw_cases (s : State) (p : PlaneSel) (i : Nat) (v : Byte) :
    (framebufferAt p i = none ∧ s.fbw p i v = s.refuse .badIndex) ∨
    (∃ q, framebufferAt p i = some q ∧ s.op.isSome = true ∧ s.fbw p i v = s.raiseFault .hostRace) ∨
    (∃ q, framebufferAt p i = some q ∧ s.op = none ∧
      s.fbw p i v = s.setPlane q (Memory.write (s.plane q) i v)) := by
  unfold State.fbw
  cases h : framebufferAt p i with
  | none => simp
  | some q => cases ho : s.op <;> simp

theorem framebufferAt_eq_some {p : PlaneSel} {i : Nat} {q : Plane} :
    framebufferAt p i = some q ↔ p = .plane q ∧ i < Config.planeBytes := by
  cases p with
  | plane r =>
    simp only [framebufferAt]
    split <;> simp_all
  | other n => simp [framebufferAt]

/-- The check on syntax and the port's own check agree (20_memory.md R55). -/
theorem framebufferAt_isSome (p : PlaneSel) (i : Nat) :
    (framebufferAt p i).isSome = validAddress p i := by
  cases p with
  | plane r =>
    simp only [framebufferAt, validAddress]
    split <;> simp_all
  | other n => rfl

/-- What a framebuffer read can do (20_memory.md R55). -/
theorem State.fbr_cases (s : State) (p : PlaneSel) (i : Nat) :
    (framebufferAt p i = none ∧ s.fbr p i = s.refuse .badIndex) ∨
    (∃ q, framebufferAt p i = some q ∧
      s.fbr p i = s.returns (.byte (Memory.read (s.plane q) i))) := by
  unfold State.fbr
  cases h : framebufferAt p i <;> simp

/-- What a dirty write can do (44_host_operations.md R255). -/
theorem State.dirtyPort_cases (s : State) (v : Bool) :
    (s.op.isSome = true ∧ s.dirtyPort v = s.raiseFault .hostRace) ∨
    (s.op = none ∧ s.dirtyPort v = s.writeDirty v) := by
  unfold State.dirtyPort
  cases ho : s.op <;> simp

/-- What a step can do: the block moves, or the host takes its next action. -/
theorem step_cases (s : State) :
    (s.host = [] ∧ step s = blockStep s) ∨
    (∃ turns, s.host = .pass :: turns ∧ step s = blockStep { s with host := turns }) ∨
    (∃ a turns, s.host = .act a :: turns ∧ step s = hostStep a { s with host := turns }) := by
  unfold step agentStep
  cases h : s.host with
  | nil => simp
  | cons x turns => cases x <;> simp

/-! ### A request -/

theorem requestStep_next (q : BitVec 3) (s : State) : ∃ t, requestStep q s = .next t := by
  rcases requestStep_cases q s with ⟨-, h⟩ | ⟨-, h⟩ | ⟨-, h⟩ | ⟨-, h⟩ | ⟨-, h⟩ | ⟨-, h⟩ <;>
    exact ⟨_, h⟩

/-- What a request can do: only the refused mark; only the waiting request; a program is started from
idle, and only INIT's before the first INIT; or BUSY is answered. -/
theorem requestStep_effect {s t : State} {q : BitVec 3} (h : requestStep q s = .next t) :
    (∃ r, t = s.refuse r) ∨
    ((s.fault.isSome = true ∨ s.op.isSome = true) ∧ reservedCode q = false ∧ t = s.hold q) ∨
    (s.fault = none ∧ s.op = none ∧ ∃ o p, t = s.start o p ∧ p ≠ [] ∧
      (p = initProg (Memory.bytes s.fbBlack) (Memory.bytes s.fbRed) ∨
        s.phase ≠ .uninitialized ∧
          (p = updateProg (Memory.bytes s.fbBlack) (Memory.bytes s.fbRed) ∨ p = refreshProg ∨
            p = blankProg Config.params.blankWakes))) ∨
    (s.fault = none ∧ s.op = none ∧
      t = { s.sampled with
        resp := s.resp ++ [.busyr (busyIndication s.busyLevel)]
        pending := none }) := by
  have admitted {n : Bool} {u : State} (hq : reservedCode q = false) (hu : s.admission q n u = t) :
      (∃ r, t = s.refuse r) ∨
      ((s.fault.isSome = true ∨ s.op.isSome = true) ∧ reservedCode q = false ∧ t = s.hold q) ∨
      (s.fault = none ∧ s.op = none ∧ t = u ∧ (n = true → s.phase ≠ .uninitialized)) := by
    subst hu
    rcases State.admission_cases s q n u with ⟨h, e⟩ | ⟨-, -, -, -, e⟩ | ⟨hf, ho, hn, e⟩ <;> rw [e]
    · exact .inr (.inl ⟨h, hq, rfl⟩)
    · exact .inl ⟨_, rfl⟩
    · exact .inr (.inr ⟨hf, ho, rfl, hn⟩)
  rcases requestStep_cases q s with ⟨-, e⟩ | ⟨rfl, e⟩ | ⟨rfl, e⟩ | ⟨rfl, e⟩ | ⟨rfl, e⟩ | ⟨rfl, e⟩ <;>
    rw [e] at h <;> injection h with h
  · exact .inl ⟨_, h.symm⟩
  all_goals
    rcases admitted rfl h with h | h | ⟨hf, ho, h, hn⟩
    · exact .inl h
    · exact .inr (.inl h)
  · exact .inr (.inr (.inl ⟨hf, ho, _, _, h, by simp [initProg, tag], .inl rfl⟩))
  · exact .inr (.inr (.inl ⟨hf, ho, _, _, h, by simp [updateProg, wake, resetPulse, tag],
      .inr ⟨hn rfl, .inl rfl⟩⟩))
  · exact .inr (.inr (.inl ⟨hf, ho, _, _, h, by simp [refreshProg, refreshSeq, tag],
      .inr ⟨hn rfl, .inr (.inl rfl)⟩⟩))
  · exact .inr (.inr (.inl ⟨hf, ho, _, _, h, by simp [blankProg, transmit, tag],
      .inr ⟨hn rfl, .inr (.inr rfl)⟩⟩))
  · exact .inr (.inr (.inr ⟨hf, ho, h⟩))

end Sys2Proof.Machine
end

