-- ==== Sys2Proof/Laws/PerInstr.lean ====
section
/-! SUPPORT. What each instruction is as syntax: the port it belongs to and its coded unit. -/

namespace Sys2Proof.Laws

/-- Each instruction is of exactly one of three kinds, whatever the opcode map (30_encoding.md R80 to R88): a
request code that is not reserved and that no map changes; a command unit, the D/C bit at
`DC_CMD_LEVEL` over the command's opcode byte; or a data unit, the D/C bit at the other level over its
operand. -/
def PortFormat.Statement (i : Instr) : Prop :=
  (∃ q, reservedCode q = false ∧ ∀ m, encode m i = .hostop3 q) ∨
  (∃ c, i = .ofCommand c ∧ ∀ m, encode m i = .wire9 (m.dcCmd.bit ++ m.opcode c)) ∨
  (∃ b, i = .data b ∧ ∀ m, encode m i = .wire9 (m.dcCmd.flip.bit ++ b))

theorem PortFormat.init : PortFormat.Statement .init := .inl ⟨1, rfl, fun _ => rfl⟩

theorem PortFormat.update : PortFormat.Statement .update := .inl ⟨2, rfl, fun _ => rfl⟩

theorem PortFormat.refresh : PortFormat.Statement .refresh := .inl ⟨3, rfl, fun _ => rfl⟩

theorem PortFormat.blank : PortFormat.Statement .blank := .inl ⟨4, rfl, fun _ => rfl⟩

theorem PortFormat.busy : PortFormat.Statement .busy := .inl ⟨5, rfl, fun _ => rfl⟩

theorem PortFormat.psr : PortFormat.Statement .psr := .inr (.inl ⟨.psr, rfl, fun _ => rfl⟩)

theorem PortFormat.pwr : PortFormat.Statement .pwr := .inr (.inl ⟨.pwr, rfl, fun _ => rfl⟩)

theorem PortFormat.pof : PortFormat.Statement .pof := .inr (.inl ⟨.pof, rfl, fun _ => rfl⟩)

theorem PortFormat.pon : PortFormat.Statement .pon := .inr (.inl ⟨.pon, rfl, fun _ => rfl⟩)

theorem PortFormat.btst : PortFormat.Statement .btst := .inr (.inl ⟨.btst, rfl, fun _ => rfl⟩)

theorem PortFormat.dslp : PortFormat.Statement .dslp := .inr (.inl ⟨.dslp, rfl, fun _ => rfl⟩)

theorem PortFormat.dtm1 : PortFormat.Statement .dtm1 := .inr (.inl ⟨.dtm1, rfl, fun _ => rfl⟩)

theorem PortFormat.drf : PortFormat.Statement .drf := .inr (.inl ⟨.drf, rfl, fun _ => rfl⟩)

theorem PortFormat.dtm2 : PortFormat.Statement .dtm2 := .inr (.inl ⟨.dtm2, rfl, fun _ => rfl⟩)

theorem PortFormat.lutVcom0 : PortFormat.Statement .lutVcom0 := .inr (.inl ⟨.lutVcom0, rfl, fun _ => rfl⟩)

theorem PortFormat.lutW : PortFormat.Statement .lutW := .inr (.inl ⟨.lutW, rfl, fun _ => rfl⟩)

theorem PortFormat.lutB : PortFormat.Statement .lutB := .inr (.inl ⟨.lutB, rfl, fun _ => rfl⟩)

theorem PortFormat.lutG1 : PortFormat.Statement .lutG1 := .inr (.inl ⟨.lutG1, rfl, fun _ => rfl⟩)

theorem PortFormat.lutG2 : PortFormat.Statement .lutG2 := .inr (.inl ⟨.lutG2, rfl, fun _ => rfl⟩)

theorem PortFormat.lutVcom1 : PortFormat.Statement .lutVcom1 := .inr (.inl ⟨.lutVcom1, rfl, fun _ => rfl⟩)

theorem PortFormat.lutRed0 : PortFormat.Statement .lutRed0 := .inr (.inl ⟨.lutRed0, rfl, fun _ => rfl⟩)

theorem PortFormat.lutRed1 : PortFormat.Statement .lutRed1 := .inr (.inl ⟨.lutRed1, rfl, fun _ => rfl⟩)

theorem PortFormat.pll : PortFormat.Statement .pll := .inr (.inl ⟨.pll, rfl, fun _ => rfl⟩)

theorem PortFormat.cdi : PortFormat.Statement .cdi := .inr (.inl ⟨.cdi, rfl, fun _ => rfl⟩)

theorem PortFormat.tres : PortFormat.Statement .tres := .inr (.inl ⟨.tres, rfl, fun _ => rfl⟩)

theorem PortFormat.vdcs : PortFormat.Statement .vdcs := .inr (.inl ⟨.vdcs, rfl, fun _ => rfl⟩)

theorem PortFormat.data (b : Byte) : PortFormat.Statement (.data b) :=
  .inr (.inr ⟨b, rfl, fun _ => rfl⟩)

end Sys2Proof.Laws
end

