-- ==== Sys2Proof/Laws/Run.lean ====
section
/-! SUPPORT. Runs of many steps, one step at a time and in two parts. -/

namespace Sys2Proof.Machine

/-- On the block's turn, a pass included, the step is the block's on the state without that turn. -/
theorem step_of_blockTurn {s : State} {turns : List HostTurn} (h : s.blockTurn turns) :
    step s = blockStep { s with host := turns } := by
  rcases h with h | ⟨h, rfl⟩
  · simp [step, agentStep, h]
  · cases s
    subst h
    rfl

/-- On the block's turn with no fault, the step runs the micro-action at the head of the program. -/
theorem step_of_prog {s : State} {turns : List HostTurn} {ph : Phase} {a : MicroAction} {rest : Prog}
    (h : s.blockTurn turns) (hf : s.fault = none) (hp : s.prog = (ph, a) :: rest) :
    step s = microStep ph a rest { s with host := turns } := by
  simp [step_of_blockTurn h, blockStep, hf, hp]

theorem run_zero (s : State) : Sys2Proof.core.run 0 s = .next s := rfl

/-- A step that answers a next state, and then the rest of the run. -/
theorem run_succ {s t : State} (h : step s = .next t) (n : Nat) :
    Sys2Proof.core.run (n + 1) s = Sys2Proof.core.run n t := by
  have h' : Sys2Proof.core.step s = .next t := h
  simp [Host.Core.run, h']

/-- A run in two parts. -/
theorem run_add {s t : State} {n : Nat} (h : Sys2Proof.core.run n s = .next t) (m : Nat) :
    Sys2Proof.core.run (n + m) s = Sys2Proof.core.run m t := by
  induction n generalizing s with
  | zero =>
    injection h with h
    subst h
    rw [Nat.zero_add]
  | succ n ih =>
    rw [Nat.succ_add]
    simp only [Host.Core.run] at h ⊢
    cases hs : Sys2Proof.core.step s with
    | next u =>
      simp only [hs] at h ⊢
      exact ih h
    | fault r => simp [hs] at h
    | refused r => simp [hs] at h

end Sys2Proof.Machine
end

