-- ==== Sys2Proof/Laws/Programs.lean ====
section
/-! SUPPORT. How programs and their events are put together: what tagging, the blocks and the checks on
programs do to an append. -/

namespace Sys2Proof.Machine

theorem planeBytes_eq : Config.planeBytes = 5000 := by decide

@[simp] theorem tag_nil (ph : Phase) : tag ph [] = [] := rfl

theorem tag_append (ph : Phase) (xs ys : List MicroAction) :
    tag ph (xs ++ ys) = tag ph xs ++ tag ph ys := by
  simp [tag]

@[simp] theorem tag_length (ph : Phase) (xs : List MicroAction) : (tag ph xs).length = xs.length := by
  simp [tag]

theorem wellFormed_append (p q : Prog) :
    Prog.wellFormed (p ++ q) = (Prog.wellFormed p && Prog.wellFormed q) := by
  simp [Prog.wellFormed]

/-- A template of one phase is well-formed when its micro-actions are. -/
theorem wellFormed_tag {ph : Phase} (h : ph.inFlight = true) {xs : List MicroAction}
    (hx : ∀ a ∈ xs, a.emitted = true) : Prog.wellFormed (tag ph xs) = true := by
  simp only [Prog.wellFormed, tag, List.all_map, List.all_eq_true, Function.comp, h, Bool.true_and]
  exact hx

/-- No site sends deep-sleep (42_sequencer.md R196). -/
theorem Site.emit_emitted (x : Site) : ∀ a ∈ x.emit, a.emitted = true := by
  intro a ha
  simp only [Site.emit, cmdSeq, List.mem_cons, List.mem_map] at ha
  rcases ha with rfl | ⟨b, -, rfl⟩
  · cases x with
    | lut k => revert k; decide
    | _ => decide
  · rfl

theorem busyWaits_append (p q : Prog) : busyWaits (p ++ q) = busyWaits p + busyWaits q := by
  simp [busyWaits]

/-- A template of one phase with no busy wait in it. -/
theorem busyWaits_tag (ph : Phase) {xs : List MicroAction} (h : .waitBusy ∉ xs) :
    busyWaits (tag ph xs) = 0 := by
  simp only [busyWaits, tag, List.countP_eq_zero, List.mem_map]
  rintro _ ⟨a, ha, rfl⟩
  simp only [beq_iff_eq]
  rintro rfl
  exact h ha

/-- The events of a program whose first part has no busy wait. -/
theorem progEvents_append {p : Prog} (h : busyWaits p = 0) (q : Prog) (ks : List Nat) :
    progEvents (p ++ q) ks = progEvents p [] ++ progEvents q ks := by
  induction p with
  | nil => rfl
  | cons x p ih =>
    obtain ⟨ph, a⟩ := x
    simp only [busyWaits, List.countP_cons, Nat.add_eq_zero_iff] at h
    have := ih (by simpa [busyWaits] using h.1)
    cases a <;> simp_all [progEvents]

/-- The events of a run of data units. -/
theorem progEvents_data (ph : Phase) (bs : List Byte) :
    progEvents (tag ph (bs.map .dat)) [] = bs.map .data := by
  induction bs with
  | nil => rfl
  | cons b bs ih => exact congrArg (Event.data b :: ·) ih

/-- The events of a command with its data block (40_command_protocol.md R117). -/
theorem progEvents_cmdSeq (ph : Phase) (c : Command) (bs : List Byte) :
    progEvents (tag ph (cmdSeq c bs)) [] = blockEvents c bs :=
  congrArg (Event.cmd (Config.opcode c) :: ·) (progEvents_data ph bs)

/-- Two plane bytes' payloads after each other are the payload of the two. -/
theorem blackWire_append (xs ys : List Byte) : blackWire (xs ++ ys) = blackWire xs ++ blackWire ys := by
  simp [blackWire]

end Sys2Proof.Machine
end

