-- ==== Sys2Proof/Tests/Slice0.lean ====
section
/-! SUPPORT. The model's own tests, and a witness for the hypotheses of each statement. Expected values
are those of 95_test_vectors.md, or written out by hand from the rule a test names. -/

namespace Sys2Proof.Tests

open Sys2Proof.Machine

/-! ### Decoding: words written out from the encodings -/

/-- HOSTOP3 (30_encoding.md R81, R82). -/
theorem test_host_words :
    [0b000, 0b001, 0b010, 0b011, 0b100, 0b101, 0b110, 0b111].map (decodeTableWord 8) =
      [none, some .init, some .update, some .refresh, some .blank, some .busy, none, none] := by
  decide

/-- WIRE9 command units under the table's parameters (30_encoding.md R83, R88). -/
theorem test_wire_words :
    [0b000000000, 0b000000001, 0b000000010, 0b000000100, 0b000000110, 0b000000111, 0b000010000,
      0b000010010, 0b000010011].map (decodeTableWord 16) =
      [some .psr, some .pwr, some .pof, some .pon, some .btst, some .dslp, some .dtm1, some .drf,
        some .dtm2] := by
  decide

theorem test_lut_words :
    [0b000100000, 0b000100001, 0b000100010, 0b000100011, 0b000100100, 0b000100101, 0b000100110,
      0b000100111].map (decodeTableWord 16) =
      [some .lutVcom0, some .lutW, some .lutB, some .lutG1, some .lutG2, some .lutVcom1,
        some .lutRed0, some .lutRed1] := by
  decide

theorem test_late_words :
    [0b000110000, 0b001010000, 0b001100001, 0b010000010].map (decodeTableWord 16) =
      [some .pll, some .cdi, some .tres, some .vdcs] := by
  decide

/-- Data units, one with the byte of an opcode, and two words that are no unit of the map
(30_encoding.md R84, R89). -/
theorem test_data_words :
    [0b100000000, 0b100010010, 0b111111111, 0b000000011, 0b1000000000].map (decodeTableWord 16) =
      [some (.data 0x00), some (.data 0x12), some (.data 0xFF), none, none] := by
  decide

/-- 95_test_vectors.md V3: the units of the four sourced opcodes and of data at either level of
`DC_CMD_LEVEL`. -/
theorem test_wire_units :
    commandUnit OpcodeMap.table .pon = 0x004 ∧ commandUnit OpcodeMap.table .vdcs = 0x082 ∧
    dataUnit OpcodeMap.table 0x12 = 0x112 ∧
    commandUnit { OpcodeMap.table with dcCmd := .high } .drf = 0x112 ∧
    dataUnit { OpcodeMap.table with dcCmd := .high } 0xFF = 0x0FF := by
  decide

/-- 30_encoding.md R84: the units `0x000 0x100` read as PSR with one data byte 0x00. -/
theorem test_framing :
    streamBlocks OpcodeMap.table [0x000, 0x100] = .ok ([(.psr, [0x00])], []) := rfl

/-! ### Ill-formed terms -/

theorem test_refuses_equal_opcodes :
    OpcodeMap.wellFormed { OpcodeMap.table with pwr := 0x04 } = false := by decide

theorem test_refuses_bad_addresses :
    validAddress (.plane .black) 5000 = false ∧ validAddress (.other 2) 0 = false ∧
    validAddress (.plane .red) 4999 = true := by decide

theorem test_refuses_reserved_codes :
    [0, 1, 2, 3, 4, 5, 6, 7].map (fun q => reservedCode (BitVec.ofNat 3 q)) =
      [true, false, false, false, false, false, true, true] := by decide

theorem test_refuses_host_actions :
    HostAction.wellFormed (.request 6) = false ∧
    HostAction.wellFormed (.fbw (.plane .red) 5000 0) = false ∧
    HostAction.wellFormed (.fbr (.other 0) 0) = false := by decide

theorem test_refuses_programs :
    Prog.wellFormed [(.sleeping, .cmd .dslp)] = false ∧ Prog.wellFormed [(.ready, .feed)] = false ∧
    Prog.wellFormed [(.sleeping, .feed)] = true := by decide

theorem test_refuses_memories :
    Memory.wf [(1, 0x01), (0, 0x01)] = false ∧ Memory.wf [(0, 0x00)] = false ∧
    Memory.wf [(5000, 0x01)] = false ∧ Memory.wf [(3, 0x01), (4999, 0x02)] = true := by decide

/-! ### The transcoder and the planes -/

/-- 95_test_vectors.md V1.1. -/
theorem test_spread :
    (List.range 16).map (fun n => spread (BitVec.ofNat 4 n)) =
      [0x00, 0x03, 0x0C, 0x0F, 0x30, 0x33, 0x3C, 0x3F, 0xC0, 0xC3, 0xCC, 0xCF, 0xF0, 0xF3, 0xFC,
        0xFF] := by decide

/-- 95_test_vectors.md V1.2 and V1.3. -/
theorem test_expand :
    expand 0xA5 = (0xCC, 0x33) ∧ expand 0x80 = (0xC0, 0x00) ∧ expand 0x01 = (0x00, 0x03) ∧
    expand 0x12 = (0x03, 0x0C) ∧ expand 0x7E = (0x3F, 0xFC) ∧ collapse 0xC3 0x3C = 0x96 := by decide

/-- 95_test_vectors.md V2. -/
theorem test_pixels :
    [(0, 0), (3, 0), (8, 0), (199, 0), (0, 1), (100, 100), (199, 199)].map
        (fun q : Nat × Nat => (pixelByte q.1 q.2, pixelBit q.1 q.2)) =
      [(0, 7), (0, 4), (1, 7), (24, 0), (25, 7), (2512, 3), (4999, 0)] := by decide

/-- Writes at both ends of a plane, and one that removes its entry. -/
theorem test_memory_write :
    Memory.write (Memory.write [] 4999 0x01) 0 0xA5 = [(0, 0xA5), (4999, 0x01)] ∧
    Memory.write [(0, 0xA5), (4999, 0x01)] 0 0x00 = [(4999, 0x01)] := by decide

/-! ### Small states -/

/-- Idle after an INIT. -/
def idle : State := { State.reset with phase := .ready }

/-- An UPDATE in flight with the given program left, the first tag its phase. -/
def flight (ph : Phase) (a : MicroAction) (rest : Prog) : State :=
  { State.reset with op := some .update, phase := ph, prog := (ph, a) :: rest }

/-- The host about to take one action. -/
def acting (s : State) (a : HostAction) : State := { s with host := [.act a] }

/-- A busy wait before display-refresh. -/
def beforeRefresh (levels : List Level) : State :=
  { flight .refreshing .waitBusy [(.refreshing, .cmd .drf)] with busyIn := levels }

/-! ### Single steps -/

/-- 95_test_vectors.md V5.1: INIT from block reset. -/
theorem test_init_word :
    ∃ t, step (State.reset.withFetchWord 8 1) = .next t ∧ t.op = some .init ∧ t.statusWord = 0x21 :=
  ⟨_, rfl, rfl, rfl⟩

theorem test_update_refused :
    ∃ t, step (State.reset.withFetchWord 8 2) = .next t ∧ t.op = none ∧ t.statusWord = 0xB0 :=
  ⟨_, rfl, rfl, rfl⟩

theorem test_update_accepted :
    ∃ t, exec .update idle = .next t ∧ t.op = some .update ∧ t.statusWord = 0x21 :=
  ⟨_, rfl, rfl, rfl⟩

theorem test_refresh_accepted :
    ∃ t, exec .refresh idle = .next t ∧ t.statusWord = 0x26 ∧ t.prog.length = 2 :=
  ⟨_, rfl, rfl, rfl⟩

theorem test_blank_accepted :
    ∃ t, exec .blank idle = .next t ∧ t.op = some .blank ∧ t.dirty = true := ⟨_, rfl, rfl, rfl⟩

/-- 95_test_vectors.md V5.3. -/
theorem test_busy_low :
    ∃ t, exec .busy { idle with busyIn := [.low] } = .next t ∧ t.resp = [.busyr true] ∧
      t.trace = [.sample .low] ∧ t.op = none := ⟨_, rfl, rfl, rfl, rfl⟩

theorem test_busy_high :
    ∃ t, exec .busy { idle with busyIn := [.high] } = .next t ∧ t.resp = [.busyr false] :=
  ⟨_, rfl, rfl⟩

/-- The sourced opcodes on the wire (95_test_vectors.md E11). -/
theorem test_psr_word :
    ∃ t, step (State.reset.withFetchWord 16 0x000) = .next t ∧ t.trace = [.cmd 0x00] := ⟨_, rfl, rfl⟩

theorem test_pon_word :
    ∃ t, step (State.reset.withFetchWord 16 0x004) = .next t ∧ t.trace = [.cmd 0x04] := ⟨_, rfl, rfl⟩

theorem test_drf_word :
    ∃ t, step (State.reset.withFetchWord 16 0x012) = .next t ∧ t.trace = [.cmd 0x12] := ⟨_, rfl, rfl⟩

theorem test_data_word :
    ∃ t, step (State.reset.withFetchWord 16 0x15A) = .next t ∧ t.trace = [.data 0x5A] := ⟨_, rfl, rfl⟩

theorem test_dslp_word :
    step (State.reset.withFetchWord 16 0x007) = .refused .deepSleepNeverEmitted := rfl

/-- A stalled transport sends nothing (40_command_protocol.md R114). -/
theorem test_stalled_unit :
    ∃ t, step { flight .initializing (.cmd .pon) [] with stallIn := some 0 } = .next t ∧
      t.trace = [] ∧ t.prog = [(.initializing, .cmd .pon)] := ⟨_, rfl, rfl, rfl⟩

/-- 95_test_vectors.md P4, to its end: the three status reads, the marks and the held request. -/
theorem test_misuse :
    ∃ t, Sys2Proof.core.run 9
        { State.reset with
          host := [.act (.request 2), .act .status, .act (.request 1), .act (.request 6), .pass,
            .act (.fbw (.plane .black) 0 0x01), .act .status, .act (.request 2), .pass] } = .next t ∧
      t.hostReads = [.status 0xB0, .status 0xE1] ∧ t.events = [.cfg] ∧ t.fault = some .hostRace ∧
      t.pending = some 2 ∧ t.fbBlack = [] ∧ t.resp = [] := ⟨_, rfl, rfl, rfl, rfl, rfl, rfl, rfl⟩

/-- 95_test_vectors.md P5: a newer request replaces the one that waits. -/
theorem test_pending_replaced :
    ∃ t, Sys2Proof.core.run 3
        { beforeRefresh [] with
          host := [.act (.request 3), .act (.request 4), .act .status] } = .next t ∧
      t.pending = some 4 ∧ t.hostReads = [.status 0x26] := ⟨_, rfl, rfl, rfl⟩

/-- 95_test_vectors.md V7: writing and reading back, and a read in flight. -/
theorem test_ports :
    ∃ t, Sys2Proof.core.run 4
        { idle with
          host := [.act (.fbw (.plane .red) 4999 0x01), .act (.fbr (.plane .red) 4999),
            .act (.dirtyWrite false), .act .dirtyRead] } = .next t ∧
      t.hostReads = [.byte 0x01, .dirty false] ∧ t.fbBlack = [] := ⟨_, rfl, rfl, rfl⟩

/-! ### Witnesses: a state and operands that meet the hypotheses of each statement together -/

theorem witness_DecodeEncodeAgree : OpcodeMap.table.distinct = true := by decide

theorem witness_EncodeDecodeAgree :
    decode OpcodeMap.table (.hostop3 5) = .ok .busy ∧ decode OpcodeMap.table (.wire9 0x082) = .ok .vdcs ∧
    decode OpcodeMap.table (.wire9 0x1FF) = .ok (.data 0xFF) := ⟨rfl, rfl, rfl⟩

theorem witness_StepRunsRequest :
    (acting idle (.request 3)).host = .act (.request 3) :: [] ∧
    decode Config.params.opcodes (.hostop3 3) = .ok .refresh := ⟨rfl, rfl⟩

/-- A data unit decodes to its byte at either level of `DC_CMD_LEVEL`. -/
theorem data_unit_decodes (m : OpcodeMap) : decode m (.wire9 (dataUnit m 0x5A)) = .ok (.data 0x5A) := by
  cases h : m.dcCmd <;> simp [decode, decodeWire, dataUnit, h, wireUnit, Level.flip, Level.bit]

/-- The unit of PSR decodes to PSR at either level. -/
theorem psr_unit_decodes (m : OpcodeMap) : decode m (.wire9 (commandUnit m .psr)) = .ok .psr := by
  cases h : m.dcCmd <;>
    simp [decode, decodeWire, decodeCommand, commandUnit, h, wireUnit, Level.bit, OpcodeMap.opcode,
      Command.all, Instr.ofCommand]

/-- The host passes and then reads the status word. -/
def passing (s : State) : State := { s with host := [.pass, .act .status] }

/-- The two forms of the block's turn. -/
theorem passing_blockTurn (s : State) : (passing s).blockTurn [.act .status] := .inl rfl

theorem flight_blockTurn (ph : Phase) (a : MicroAction) (rest : Prog) :
    (flight ph a rest).blockTurn [] := .inr ⟨rfl, rfl⟩

theorem witness_StepRunsWireUnit_command :
    let s := passing (flight .initializing (.cmd .psr) [(.initializing, .dat 0x5A)])
    s.blockTurn [.act .status] ∧ s.fault = none ∧ s.transportReady = true ∧
    s.prog = (.initializing, .cmd .psr) :: [(.initializing, .dat 0x5A)] ∧
    decode Config.params.opcodes (.wire9 (commandUnit Config.params.opcodes .psr)) = .ok .psr :=
  ⟨passing_blockTurn _, rfl, rfl, rfl, psr_unit_decodes _⟩

theorem witness_StepRunsWireUnit_data :
    let s := flight .initializing (.dat 0x5A) []
    s.blockTurn [] ∧ s.fault = none ∧ s.transportReady = true ∧
    s.prog = (.initializing, .dat 0x5A) :: [] ∧
    decode Config.params.opcodes (.wire9 (dataUnit Config.params.opcodes 0x5A)) = .ok (.data 0x5A) :=
  ⟨flight_blockTurn _ _ _, rfl, rfl, rfl, data_unit_decodes _⟩

theorem witness_StepRunsHeldRequest :
    let s := passing { idle with pending := some 4 }
    s.blockTurn [.act .status] ∧ s.fault = none ∧ s.op = none ∧ s.prog = [] ∧ s.pending = some 4 ∧
    decode Config.params.opcodes (.hostop3 4) = .ok .blank :=
  ⟨passing_blockTurn _, rfl, rfl, rfl, rfl, rfl⟩

/-- For INIT at block reset, and for INIT, UPDATE, REFRESH and BLANK when idle after an INIT:
InitAccepted, UpdateAccepted, RefreshAccepted, BlankAccepted. -/
theorem witness_Accepted :
    (State.reset.fault = none ∧ State.reset.op = none) ∧
    idle.fault = none ∧ idle.op = none ∧ idle.phase ≠ .uninitialized := by decide

theorem witness_BusyAnswered :
    let s := { idle with busyIn := [.low, .high] }
    s.fault = none ∧ s.op = none ∧ s.busyIn = .low :: [.high] := ⟨rfl, rfl, rfl⟩

theorem witness_RequestHeld :
    { idle with fault := some .hostRace }.fault.isSome = true ∧ (beforeRefresh []).op.isSome = true :=
  ⟨rfl, rfl⟩

theorem witness_RefusedBeforeInit :
    State.reset.fault = none ∧ State.reset.op = none ∧ State.reset.phase = .uninitialized := by decide

theorem witness_ReservedCodesRefused :
    (acting idle (.request 0)).host = .act (.request 0) :: [] ∧
    (acting idle (.request 6)).host = .act (.request 6) :: [] ∧
    (acting (beforeRefresh []) (.request 7)).host = .act (.request 7) :: [] := ⟨rfl, rfl, rfl⟩

/-- For CommandUnitsSent and DataUnitSent: a transport without end, and one that takes one more. -/
theorem witness_UnitsSent :
    idle.transportReady = true ∧ { idle with stallIn := some 1 }.transportReady = true := by decide

theorem witness_CommandSequenceEmits : idle.stallIn = none ∧ ([0xA5] : List Byte) ≠ [] := by decide

theorem witness_StalledTransportHangs :
    let s := { flight .initializing (.cmd .pon) [] with stallIn := some 0 }
    let r := { flight .initializing (.dat 0x00) [] with stallIn := some 0 }
    (s.stallIn = some 0 ∧ s.host = [] ∧ s.fault = none ∧ s.prog = (.initializing, .cmd .pon) :: []) ∧
    r.stallIn = some 0 ∧ r.host = [] ∧ r.fault = none ∧ r.prog = (.initializing, .dat 0x00) :: [] := by
  decide

/-- One state for each of the five clauses. -/
theorem witness_QuietMicroActions :
    let tail : Prog := [(.initializing, .feed)]
    (flight .resetting .cfg tail).prog = (.resetting, .cfg) :: tail ∧
    (flight .resetting (.rstl .low) tail).prog = (.resetting, .rstl .low) :: tail ∧
    (flight .resetting (.wait 0) tail).prog = (.resetting, .wait 0) :: tail ∧
    (flight .resetting .feed tail).prog = (.resetting, .feed) :: tail ∧
    (flight .resetting .clearDirty tail).prog = (.resetting, .clearDirty) :: tail ∧
    (flight .resetting .cfg tail).blockTurn [] ∧ (flight .resetting .cfg tail).fault = none ∧
    (passing (flight .resetting .cfg tail)).blockTurn [.act .status] :=
  ⟨rfl, rfl, rfl, rfl, rfl, flight_blockTurn _ _ _, rfl, passing_blockTurn _⟩

/-- High with more to come, high at the end, and low. -/
theorem witness_BusyWaitSamples :
    (let s := passing (beforeRefresh [.high])
     s.blockTurn [.act .status] ∧ s.fault = none ∧ s.busyLevel = .high ∧
       s.prog = (.refreshing, .waitBusy) :: (.refreshing, .cmd .drf) :: []) ∧
    (let s := { flight .waitingBusy .waitBusy [] with busyIn := [.high] }
     s.blockTurn [] ∧ s.fault = none ∧ s.busyLevel = .high ∧
       s.prog = (.waitingBusy, .waitBusy) :: [] ∧ s.op = some .update) ∧
    (let s := beforeRefresh [.low]
     s.blockTurn [] ∧ s.fault = none ∧ s.busyLevel = .low ∧
       s.prog = (.refreshing, .waitBusy) :: (.refreshing, .cmd .drf) :: []) :=
  ⟨⟨passing_blockTurn _, rfl, rfl, rfl⟩, ⟨.inr ⟨rfl, rfl⟩, rfl, rfl, rfl, rfl⟩,
    .inr ⟨rfl, rfl⟩, rfl, rfl, rfl⟩

theorem witness_CompletionStep :
    let s := passing (flight .sleeping .clearDirty [])
    s.blockTurn [.act .status] ∧ s.fault = none ∧ s.op = some .update ∧
    s.prog = [(.sleeping, .clearDirty)] ∧ ∃ t, step s = .next t ∧ t.prog = [] :=
  ⟨passing_blockTurn _, rfl, rfl, rfl, _, rfl, rfl⟩

theorem witness_BusyWaitRuns :
    let s := beforeRefresh [.low, .low, .high, .low]
    s.host = [] ∧ s.fault = none ∧
    s.prog = (.refreshing, .waitBusy) :: (.refreshing, .cmd .drf) :: [] ∧
    s.busyIn = List.replicate 2 .low ++ .high :: [.low] := by decide

theorem witness_LowBusyNeverCompletes :
    let s := beforeRefresh [.low, .low]
    s.host = [] ∧ s.fault = none ∧ s.prog = (.refreshing, .waitBusy) :: [(.refreshing, .cmd .drf)] ∧
    s.phase = .refreshing ∧ s.busyIn = List.replicate 2 .low ++ [] := by decide

theorem witness_EventCountsPerOperation : ([0, 1, 2] : List Nat).length = 3 := by decide

theorem witness_ProgramRunsToCompletion :
    let s := beforeRefresh [.low, .high]
    s.host = [] ∧ s.fault = none ∧ s.stallIn = none ∧ s.op = some .update ∧ s.prog ≠ [] ∧
    Prog.wellFormed s.prog = true ∧ ([1] : List Nat).length = busyWaits s.prog ∧
    s.busyIn = busyScript [1] ++ [] := by decide

/-- For UpdateFullCycle, InitFullCycle, RefreshFullCycle and BlankFullCycle, in turn. -/
theorem witness_FullCycles :
    (let s := { acting idle (.request 2) with busyIn := busyScript [1, 0, 2] }
     s.host = [.act (.request 2)] ∧ s.fault = none ∧ s.op = none ∧ s.prog = [] ∧ s.phase = .ready ∧
       s.stallIn = none ∧ s.busyIn = busyScript [1, 0, 2] ++ []) ∧
    (let s := { acting State.reset (.request 1) with busyIn := busyScript [0, 0, 0] }
     s.host = [.act (.request 1)] ∧ s.fault = none ∧ s.op = none ∧ s.prog = [] ∧
       s.stallIn = none ∧ s.busyIn = busyScript [0, 0, 0] ++ []) ∧
    (let s := { acting idle (.request 3) with busyIn := busyScript [2] }
     s.host = [.act (.request 3)] ∧ s.fault = none ∧ s.op = none ∧ s.prog = [] ∧ s.phase = .ready ∧
       s.stallIn = none ∧ s.busyIn = busyScript [2] ++ []) := by decide

theorem witness_BlankFullCycle :
    let levels := busyScript (if Config.params.blankWakes then [1, 2, 0] else [2, 0])
    let s := { acting idle (.request 4) with busyIn := levels }
    s.host = [.act (.request 4)] ∧ s.fault = none ∧ s.op = none ∧ s.prog = [] ∧ s.phase = .ready ∧
      s.stallIn = none ∧ s.busyIn = levels ++ [] :=
  ⟨rfl, rfl, rfl, rfl, rfl, rfl, (List.append_nil _).symm⟩

/-- For ExpandProperties: a bit number, equal expansions, and bytes that share one nibble. -/
theorem witness_ExpandProperties :
    7 < 8 ∧ expand 0xA5 = expand 0xA5 ∧
    (0xA5 : Byte).extractLsb' 4 4 = (0xA3 : Byte).extractLsb' 4 4 ∧
    (0xA5 : Byte).extractLsb' 0 4 = (0x35 : Byte).extractLsb' 0 4 := by decide

theorem witness_BlackPayloadLayout : 0 < ([0xA5, 0x81] : List Byte).length ∧
    1 < ([0xA5, 0x81] : List Byte).length := by decide

/-- Both ends of the address range, on a plane with an entry. -/
theorem witness_FramebufferWrite :
    let s := { idle with fbBlack := [(7, 0x01)] }
    (acting s (.fbw (.plane .black) 0 0x00)).host = .act (.fbw (.plane .black) 0 0x00) :: [] ∧
    (acting s (.fbw (.plane .black) 4999 0xFF)).host = .act (.fbw (.plane .black) 4999 0xFF) :: [] ∧
    s.op = none ∧ 0 < 5000 ∧ 4999 < 5000 ∧ Memory.wf (s.plane .black) = true := by decide

theorem witness_FramebufferRead :
    (acting (beforeRefresh []) (.fbr (.plane .red) 4999)).host =
      .act (.fbr (.plane .red) 4999) :: [] ∧ 4999 < 5000 := by decide

theorem witness_BadIndexRefused :
    (acting idle (.fbw (.other 2) 0 0x01)).host = .act (.fbw (.other 2) 0 0x01) :: [] ∧
    (acting (beforeRefresh []) (.fbr (.plane .black) 5000)).host =
      .act (.fbr (.plane .black) 5000) :: [] ∧ 5000 ≤ 5000 := by decide

theorem witness_HostRaceFaults :
    let s := beforeRefresh []
    s.op.isSome = true ∧ 4999 < 5000 ∧
    (acting s (.fbw (.plane .red) 4999 0x01)).host = .act (.fbw (.plane .red) 4999 0x01) :: [] ∧
    (acting s (.dirtyWrite true)).host = .act (.dirtyWrite true) :: [] := by decide

theorem witness_DirtyPort :
    idle.op = none ∧ (acting idle (.dirtyWrite false)).host = .act (.dirtyWrite false) :: [] ∧
    (acting (beforeRefresh []) .dirtyRead).host = .act .dirtyRead :: [] := by decide

/-- For StatusWordLayout and StatusRead. -/
theorem witness_StatusPort :
    (acting idle (.statusWrite 0xFF)).host = .act (.statusWrite 0xFF) :: [] ∧
    (acting (beforeRefresh []) .status).host = .act .status :: [] ∧
    (acting idle .readResp).host = .act .readResp :: [] := by decide

/-- Idle, the host about to fill the red plane and then to let the block move. -/
def filling : State := { idle with host := fill .red 0xFF ++ [HostTurn.pass] }

theorem witness_FillWritesPlane :
    filling.host = fill .red 0xFF ++ [HostTurn.pass] ∧ filling.op = none ∧
    Memory.wf (filling.plane .red) = true := by
  refine ⟨by rw [filling], by rw [filling]; rfl, by rw [filling]; rfl⟩

theorem witness_InvariantsAtReset :
    Memory.wf [(0, 0xA5)] = true ∧ Memory.wf [(4999, 0x01)] = true := by decide

/-- An operation in flight is coherent. -/
theorem flight_controlInv (ph : Phase) (a : MicroAction) (rest : Prog)
    (h : Prog.wellFormed ((ph, a) :: rest) = true) : ControlInv (flight ph a rest) where
  idle_iff := by simp [flight]
  idle_phase := by simp [flight]
  head_phase := by simp [flight]
  prog_wf := h
  pending_wf := by simp [flight, State.reset, State.resetSeeded]

/-- For ControlInvKept and CoherentStateSteps. -/
theorem witness_ControlInvKept :
    let s := flight .refreshing .waitBusy [(.refreshing, .cmd .drf)]
    ControlInv s ∧ ∃ t, step s = .next t := ⟨flight_controlInv _ _ _ rfl, _, rfl⟩

theorem witness_PlanesInvKept :
    let s := acting { idle with fbRed := [(3, 0x81)] } (.fbw (.plane .red) 2 0x01)
    PlanesInv s ∧ ∃ t, step s = .next t ∧ t.fbRed = [(2, 0x01), (3, 0x81)] :=
  ⟨⟨rfl, rfl⟩, _, rfl, rfl⟩

theorem witness_PinsInvKept :
    let s := { flight .resetting (.rstl .high) [(.initializing, .cmd .pon)] with
      trace := [.wait 1, .rst .low], rst := .driven .low }
    PinsInv s ∧ ∃ t, step s = .next t ∧ t.rst = .driven .high := ⟨⟨rfl, rfl⟩, _, rfl, rfl⟩

theorem witness_FreshInvKept :
    let s := acting { State.reset with busyIn := [.low] } (.request 5)
    ControlInv s ∧ FreshInv s ∧ ∃ t, step s = .next t ∧ t.trace = [.sample .low] := by
  refine ⟨⟨?_, ?_, ?_, rfl, ?_⟩, ⟨fun _ => rfl, ?_, ?_⟩, _, rfl, rfl⟩ <;>
    simp [acting, State.reset, State.resetSeeded]

theorem witness_PhaseGraphFollowed :
    let s := flight .waitingBusy .feed [(.sleeping, .cmd .pof)]
    ControlInv s ∧ tagsFollowGraph s.prog = true ∧ ∃ t, step s = .next t ∧ t.phase = .sleeping :=
  ⟨flight_controlInv _ _ _ rfl, rfl, _, rfl, rfl⟩

theorem witness_FeedsFollowWaitsKept :
    let s := flight .sleeping (.wait 500000) [(.sleeping, .feed), (.sleeping, .cmd .pof)]
    ControlInv s ∧ feedsFollowWaits none (s.events ++ progEvents s.prog []) = true ∧
    ∃ t, step s = .next t := by
  refine ⟨flight_controlInv _ _ _ rfl, ?_, _, rfl⟩
  simp [flight, State.events, State.reset, State.resetSeeded, progEvents, feedsFollowWaits,
    feedableWait, Config.tHold]

/-- A command unit and a data unit. -/
theorem witness_TraceGrowth :
    (let s := flight .refreshing (.cmd .drf) []
     ∃ t, step s = .next t ∧ t.trace = .cmd 0x12 :: s.trace) ∧
    (let s := flight .transmittingRed (.dat 0xA5) []
     ∃ t, step s = .next t ∧ t.trace = .data 0xA5 :: s.trace) := ⟨⟨_, rfl, rfl⟩, _, rfl, rfl⟩

/-- In flight, and on a pass turn that admits a request that waited. -/
theorem witness_PlanesKeptInFlight :
    (let s := flight .sleeping .clearDirty [(.sleeping, .cmd .pof)]
     s.op.isSome = true ∧ s.blockTurn [] ∧ ∃ t, step s = .next t) ∧
    (let s := passing { idle with pending := some 3 }
     s.blockTurn [.act .status] ∧ ∃ t, step s = .next t ∧ t.op = some .refresh) :=
  ⟨⟨rfl, flight_blockTurn _ _ _, _, rfl⟩, passing_blockTurn _, _, rfl, rfl⟩

theorem witness_SequencerIgnoresPlanes :
    let s := passing (flight .sleeping .clearDirty [(.sleeping, .cmd .pof)])
    s.blockTurn [.act .status] ∧ s.prog ≠ [] ∧ ∃ t, step s = .next t :=
  ⟨passing_blockTurn _, by simp [passing, flight], _, rfl⟩

/-- For FaultFreezes and MarksNeverCleared: a faulted and refused operation in flight. -/
theorem witness_FaultFreezes :
    let s := { beforeRefresh [] with fault := some .hostRace, refused := true }
    s.fault = some .hostRace ∧ s.refused = true ∧ s.op.isSome = true ∧ ∃ t, step s = .next t :=
  ⟨rfl, rfl, rfl, _, rfl⟩

end Sys2Proof.Tests
end

section
/-! The opcode map and the wire format: distinct opcode bytes make `decodeCommand` the inverse of
`OpcodeMap.opcode`, a unit gives back the two fields it is made of, and so the decoder undoes the encoder. -/

namespace Sys2Proof

/-! ### The opcode map -/

theorem Command.mem_all (c : Command) : c ∈ Command.all := by
  cases c <;> decide

/-- The constraint of 00_scope.md R9 in the form the proofs use. -/
theorem OpcodeMap.opcode_injective {m : OpcodeMap} (hm : m.distinct = true) :
    Function.Injective m.opcode := by
  intro c d hcd
  have hnodup : (Command.all.map m.opcode).Nodup := of_decide_eq_true hm
  exact List.inj_on_of_nodup_map hnodup c.mem_all d.mem_all hcd

/-- A row that the map's search answers has the byte that was searched for, distinct bytes or not. -/
theorem opcode_of_decodeCommand {m : OpcodeMap} {b : Byte} {c : Command}
    (h : decodeCommand m b = some c) : m.opcode c = b :=
  eq_of_beq (List.find?_some (p := fun c => m.opcode c == b) h)

/-- The search for an opcode byte of the map ends at some row. -/
theorem decodeCommand_opcode_isSome (m : OpcodeMap) (c : Command) :
    (decodeCommand m (m.opcode c)).isSome = true :=
  List.find?_isSome.mpr ⟨c, c.mem_all, beq_self_eq_true _⟩

/-- The row found for a command's opcode byte is the command's own: any other row found would share the
byte. -/
theorem decodeCommand_opcode {m : OpcodeMap} (hm : m.distinct = true) (c : Command) :
    decodeCommand m (m.opcode c) = some c := by
  obtain ⟨d, hd⟩ := Option.isSome_iff_exists.mp (decodeCommand_opcode_isSome m c)
  have hdc : d = c := OpcodeMap.opcode_injective hm (opcode_of_decodeCommand hd)
  rw [hd, hdc]

/-! ### The fields of a wire unit -/

/-- Bit 8 of a unit is its D/C level (30_encoding.md R83). -/
@[simp] theorem wireUnit_dc (dc : Level) (b : Byte) : (wireUnit dc b).extractLsb' 8 1 = dc.bit :=
  BitVec.extractLsb'_append_eq_left

/-- Bits 7 to 0 of a unit are its byte (30_encoding.md R83). -/
@[simp] theorem wireUnit_byte (dc : Level) (b : Byte) : (wireUnit dc b).extractLsb' 0 8 = b :=
  BitVec.extractLsb'_append_eq_right

@[simp] theorem Level.flip_bit_ne (l : Level) : l.flip.bit ≠ l.bit := by
  cases l <;> decide

/-! ### Decoding each kind of unit -/

/-- A unit at `DC_CMD_LEVEL` is read through the opcode map (30_encoding.md R84). -/
theorem decodeWire_commandUnit {m : OpcodeMap} (hm : m.distinct = true) (c : Command) :
    decodeWire m (commandUnit m c) = .ok (.ofCommand c) := by
  simp [decodeWire, commandUnit, decodeCommand_opcode hm]

/-- A unit at the other level is its byte, whatever the opcode map (30_encoding.md R84). -/
theorem decodeWire_dataUnit (m : OpcodeMap) (b : Byte) :
    decodeWire m (dataUnit m b) = .ok (.data b) := by
  simp [decodeWire, dataUnit]

theorem encode_ofCommand (m : OpcodeMap) (c : Command) :
    encode m (.ofCommand c) = .wire9 (commandUnit m c) := by
  cases c <;> rfl

theorem decode_encode_ofCommand {m : OpcodeMap} (hm : m.distinct = true) (c : Command) :
    decode m (encode m (.ofCommand c)) = .ok (.ofCommand c) := by
  rw [encode_ofCommand]
  exact decodeWire_commandUnit hm c

/-- Every instruction is a request, a command's unit, or a data unit (30_encoding.md R81, R84, R88). -/
theorem Instr.request_or_command_or_data (i : Instr) :
    i ∈ [.init, .update, .refresh, .blank, .busy] ∨ i ∈ Command.all.map .ofCommand ∨
      ∃ b, i = .data b := by
  cases i with
  | init | update | refresh | blank | busy => exact .inl (by decide)
  | data b => exact .inr (.inr ⟨b, rfl⟩)
  | _ => exact .inr (.inl (by decide))

/-- The request port has one code for each request, and no opcode map changes it (30_encoding.md R81). -/
theorem decode_encode_request (m : OpcodeMap) {i : Instr}
    (hi : i ∈ [.init, .update, .refresh, .blank, .busy]) : decode m (encode m i) = .ok i := by
  fin_cases hi <;> rfl

/-! ### The statements -/

/-- Settles O4: by the three kinds of instruction; only a command's unit needs the distinct bytes. -/
theorem decodeEncodeAgree : Obligations.DecodeEncodeAgree := by
  intro m hm i
  obtain hreq | hcmd | ⟨b, rfl⟩ := i.request_or_command_or_data
  · exact decode_encode_request m hreq
  · obtain ⟨c, -, rfl⟩ := List.mem_map.mp hcmd
    exact decode_encode_ofCommand hm c
  · exact decodeWire_dataUnit m b

/-- Settles O1: the sizes are numerals, a plane's byte list runs over its `N` addresses, and the opcode
bytes are distinct because the block's parameters carry the constraint of 00_scope.md R9. -/
theorem parametersConstrained : Obligations.ParametersConstrained := by
  have hplanes : ∀ s : Machine.State, (Machine.Memory.bytes s.fbBlack).length = Config.planeBytes ∧
      (Machine.Memory.bytes s.fbRed).length = Config.planeBytes :=
    fun _ => ⟨Machine.Memory.bytes_length _, Machine.Memory.bytes_length _⟩
  have hopcodes : ∀ c d : Command, Config.opcode c = Config.opcode d → c = d :=
    fun _ _ h => OpcodeMap.opcode_injective Config.params.distinct h
  exact ⟨rfl, rfl, rfl, hplanes, rfl, hopcodes⟩

end Sys2Proof
end

section
/-! One micro-action, in one record: its events, what it leaves of the program, and what it does to the
lines and to the agents' fields. `microStep` either waits for the transport or has this effect and
settles. -/

namespace Sys2Proof

/-- The micro-action puts a unit on the wire, so it needs the transport (40_command_protocol.md R112). -/
@[simp] def MicroAction.onWire : MicroAction → Bool
  | .cmd _ => true
  | .dat _ => true
  | _ => false

end Sys2Proof

namespace Sys2Proof.Machine

/-! ### The lines, event by event -/

/-- What an event leaves on the D/C line (10_state.md R30). -/
@[simp] def driveDc (d : Pin) : Event → Pin
  | .cmd _ => .driven Config.dcCmd
  | .data _ => .driven Config.dcCmd.flip
  | _ => d

/-- What an event leaves on the reset line (10_state.md R30). -/
@[simp] def driveRst (d : Pin) : Event → Pin
  | .rst l => .driven l
  | _ => d

@[simp] theorem dcAfter_cons (e : Event) (es : List Event) :
    dcAfter (e :: es) = driveDc (dcAfter es) e := by
  cases e <;> rfl

@[simp] theorem rstAfter_cons (e : Event) (es : List Event) :
    rstAfter (e :: es) = driveRst (rstAfter es) e := by
  cases e <;> rfl

/-! ### The effect of a micro-action -/

/-- The event of a micro-action, if it has one, when BUSY shows `l` (42_sequencer.md R170). -/
@[simp] def microEvents (l : Level) : MicroAction → List Event
  | .cfg => [.cfg]
  | .rstl l' => [.rst l']
  | .cmd c => [.cmd (Config.opcode c)]
  | .dat b => [.data b]
  | .wait t => [.wait t]
  | .feed => [.feed]
  | .waitBusy => [.sample l]
  | .clearDirty => []

/-- What a micro-action leaves of the dirty flag (42_sequencer.md R170). -/
@[simp] def dirtyAfter (d : Bool) : MicroAction → Bool
  | .clearDirty => false
  | _ => d

/-- What is left of a program after its head, when BUSY shows `l` (42_sequencer.md R172, R176). -/
def microRest (l : Level) (ph : Phase) (a : MicroAction) (rest : Prog) : Prog :=
  if a = .waitBusy ∧ l = .low then
    (ph, .wait Config.params.tPoll) :: (ph, .feed) :: (ph, .waitBusy) :: rest
  else rest

/-- The state after the head `(ph, a)` of a program, before the step settles. -/
def State.afterMicro (s : State) (ph : Phase) (a : MicroAction) (rest : Prog) : State :=
  { s with
    prog := microRest s.busyLevel ph a rest
    trace := microEvents s.busyLevel a ++ s.trace
    dc := (microEvents s.busyLevel a).foldl driveDc s.dc
    rst := (microEvents s.busyLevel a).foldl driveRst s.rst
    dirty := dirtyAfter s.dirty a
    busyIn := if a = .waitBusy then s.busyIn.tail else s.busyIn
    draws := if a = .waitBusy then s.draws + 1 else s.draws
    stallIn := if a.onWire then s.stallIn.map (· - 1) else s.stallIn }

theorem ready_of_not_onWire {a : MicroAction} (ha : a.onWire = false) (s : State) :
    a.onWire = true → s.transportReady = true :=
  fun h => nomatch ha.symm.trans h

theorem microStep_stalled {s : State} {ph : Phase} {a : MicroAction} {rest : Prog}
    (ha : a.onWire = true) (hr : s.transportReady = false) : microStep ph a rest s = .next s := by
  cases a with
  | cmd c => simp [microStep, unitStep, hr]
  | dat b => simp [microStep, unitStep, hr]
  | _ => simp [MicroAction.onWire] at ha

theorem State.afterMicro_waitBusy (s : State) (ph : Phase) (rest : Prog) :
    s.afterMicro ph .waitBusy rest = s.waitBusy ph rest := by
  cases hl : s.busyLevel <;>
    simp [State.afterMicro, State.waitBusy, State.sampled, State.emit, State.pop, microRest, hl]

theorem State.afterMicro_cmd {s : State} (hr : s.transportReady = true) (ph : Phase) (c : Command)
    (rest : Prog) :
    s.afterMicro ph (.cmd c) rest = (s.pop rest).sendCommand (Config.opcode c) := by
  have hpop : (s.pop rest).transportReady = true := hr
  rw [State.sendCommand, State.sendUnit_ready hpop]
  simp [State.afterMicro, State.pop, microRest]

theorem State.afterMicro_dat {s : State} (hr : s.transportReady = true) (ph : Phase) (b : Byte)
    (rest : Prog) : s.afterMicro ph (.dat b) rest = (s.pop rest).sendData b := by
  have hpop : (s.pop rest).transportReady = true := hr
  rw [State.sendData, State.sendUnit_ready hpop]
  simp [State.afterMicro, State.pop, microRest]

theorem State.afterMicro_waitBusy_high {s : State} (h : s.busyLevel = .high) (ph : Phase) (rest : Prog) :
    s.afterMicro ph .waitBusy rest =
      { s with
        prog := rest, trace := .sample .high :: s.trace
        busyIn := s.busyIn.tail, draws := s.draws + 1 } := by
  simp [State.afterMicro, microRest, h]

theorem State.afterMicro_waitBusy_low {s : State} (h : s.busyLevel = .low) (ph : Phase) (rest : Prog) :
    s.afterMicro ph .waitBusy rest =
      { s with
        prog := (ph, .wait Config.params.tPoll) :: (ph, .feed) :: (ph, .waitBusy) :: rest
        trace := .sample .low :: s.trace, busyIn := s.busyIn.tail, draws := s.draws + 1 } := by
  simp [State.afterMicro, microRest, h]

theorem State.afterMicro_wait (s : State) (ph : Phase) (us : Nat) (rest : Prog) :
    s.afterMicro ph (.wait us) rest = { s with prog := rest, trace := .wait us :: s.trace } := by
  simp [State.afterMicro, microRest]

theorem State.afterMicro_feed (s : State) (ph : Phase) (rest : Prog) :
    s.afterMicro ph .feed rest = { s with prog := rest, trace := .feed :: s.trace } := by
  simp [State.afterMicro, microRest]

/-- A micro-action of a program that does not wait for the transport (42_sequencer.md R172). -/
theorem microStep_of_ready {s : State} {ph : Phase} {a : MicroAction} {rest : Prog}
    (he : a.emitted = true) (hr : a.onWire = true → s.transportReady = true) :
    microStep ph a rest s = .next (s.afterMicro ph a rest).settle := by
  cases a with
  | cmd c =>
    have hc : c ≠ .dslp := by simpa [MicroAction.emitted] using he
    simp [microStep, unitStep, hr rfl, exec_ofCommand, hc, settled, State.afterMicro_cmd]
  | dat b => simp [microStep, unitStep, hr rfl, settled, State.afterMicro_dat]
  | waitBusy => rw [State.afterMicro_waitBusy]; rfl
  | _ =>
    simp [microStep, State.driveReset, State.clearDirty, State.emit, State.pop, State.afterMicro, microRest]

/-- What one micro-action can do, if it answers a next state: wait for the transport, or have its effect. -/
theorem microStep_next {s t : State} {ph : Phase} {a : MicroAction} {rest : Prog}
    (h : microStep ph a rest s = .next t) :
    (a.onWire = true ∧ s.transportReady = false ∧ t = s) ∨
    (a.emitted = true ∧ (a.onWire = true → s.transportReady = true) ∧
      t = (s.afterMicro ph a rest).settle) := by
  have effect (he : a.emitted = true) (hr : a.onWire = true → s.transportReady = true) :
      t = (s.afterMicro ph a rest).settle :=
    Host.Outcome.next.inj (h.symm.trans (microStep_of_ready he hr))
  rcases microStep_cases h with ⟨⟨c, rfl⟩ | ⟨b, rfl⟩, hr, ht⟩ | ⟨c, rfl, hc, hr, -⟩ | ⟨b, rfl, hr, -⟩ |
    ⟨hcmd, hdat, -⟩
  · exact .inl ⟨rfl, hr, ht⟩
  · exact .inl ⟨rfl, hr, ht⟩
  · have he : (MicroAction.cmd c).emitted = true := by simpa [MicroAction.emitted] using hc
    exact .inr ⟨he, fun _ => hr, effect he fun _ => hr⟩
  · exact .inr ⟨rfl, fun _ => hr, effect rfl fun _ => hr⟩
  · have he : a.emitted = true := by cases a <;> simp_all [MicroAction.emitted]
    have hw : a.onWire ≠ true := by cases a <;> simp_all [MicroAction.onWire]
    exact .inr ⟨he, fun hw' => absurd hw' hw, effect he fun hw' => absurd hw' hw⟩

/-! ### The end of a step -/

/-- A step's end sets the phase, whatever it was. -/
theorem State.settle_withPhase (s : State) (ph : Phase) : { s with phase := ph }.settle = s.settle := by
  cases hp : s.prog with
  | nil => simp [State.settle, hp, State.complete]
  | cons x rest => simp [State.settle, hp]

theorem State.settle_resp (s : State) : ∃ more, s.settle.resp = s.resp ++ more := by
  cases hp : s.prog with
  | nil => exact ⟨_, by rw [State.settle_nil hp]; rfl⟩
  | cons x rest => exact ⟨[], by rw [State.settle_cons hp]; simp⟩

/-- A program is in flight from its first tag on, as a settled state is. -/
theorem State.settle_start (s : State) (o : Op) {p : Prog} (hp : p ≠ []) :
    (s.start o p).settle = s.start o p := by
  cases p with
  | nil => exact absurd rfl hp
  | cons x p => rfl

end Sys2Proof.Machine
end

section
/-! The programs of the four operations as checked data: they are well-formed (42_sequencer.md R193, R196),
and UPDATE's and INIT's have a length, three busy waits and the documented events. -/

namespace Sys2Proof.Machine

/-! ### The templates in blocks -/

/-- The initialisation commands, block by block (42_sequencer.md R178, R179). -/
theorem initCmds_eq_blocks :
    initCmds =
      tag .initializing Site.w1.emit ++ (tag .initializing Site.w2.emit ++
        (tag .initializing Site.w3.emit ++ (tag .initializing [.waitBusy] ++
        (tag .initializing Site.w4.emit ++ (tag .initializing Site.w5.emit ++
        (tag .initializing Site.w6.emit ++ (tag .initializing Site.w7.emit ++
        (tag .initializing Site.w8.emit ++ tag .initializing lutLoad)))))))) := by
  simp only [initCmds, List.flatten_cons, List.flatten_nil, List.append_nil, tag_append]

/-- One of the two halves of the transmit template (42_sequencer.md R183, R184). -/
def transmission (ph : Phase) (c : Command) (bs : List Byte) : Prog :=
  tag ph (.cmd c :: .wait Config.tTx :: (bs.map MicroAction.dat ++ [.wait Config.tTx]))

theorem transmit_eq_transmissions (bw rw : List Byte) :
    transmit bw rw = transmission .transmittingBlack .dtm1 bw ++ transmission .transmittingRed .dtm2 rw :=
  rfl

/-! ### Well-formed programs -/

theorem wellFormed_cons {ph : Phase} {a : MicroAction} {rest : Prog} :
    Prog.wellFormed ((ph, a) :: rest) = true ↔
      ph.inFlight = true ∧ a.emitted = true ∧ Prog.wellFormed rest = true := by
  simp [Prog.wellFormed, and_assoc]

theorem wellFormed_emit {ph : Phase} (h : ph.inFlight = true) (x : Site) :
    Prog.wellFormed (tag ph x.emit) = true :=
  wellFormed_tag h x.emit_emitted

theorem wellFormed_lutLoad : Prog.wellFormed (tag .initializing lutLoad) = true := by
  refine wellFormed_tag rfl fun a ha => ?_
  obtain ⟨k, -, hk⟩ := List.mem_flatMap.mp ha
  exact Site.emit_emitted _ a hk

theorem wellFormed_wake : Prog.wellFormed wake = true := by
  have hpulse : Prog.wellFormed resetPulse = true := rfl
  have hwait : Prog.wellFormed (tag .initializing [.waitBusy]) = true := rfl
  have hemit (x : Site) : Prog.wellFormed (tag .initializing x.emit) = true := wellFormed_emit rfl x
  simp only [wake, initCmds_eq_blocks, wellFormed_append, hpulse, hwait, hemit, wellFormed_lutLoad,
    Bool.and_self]

theorem wellFormed_transmission {ph : Phase} (h : ph.inFlight = true) {c : Command} (hc : c ≠ .dslp)
    (bs : List Byte) : Prog.wellFormed (transmission ph c bs) = true := by
  refine wellFormed_tag h ?_
  simp only [List.mem_cons, List.mem_append, List.mem_map, List.not_mem_nil, or_false]
  rintro a (rfl | rfl | ⟨b, -, rfl⟩ | rfl)
  · simpa [MicroAction.emitted] using hc
  all_goals rfl

theorem wellFormed_transmit (bw rw : List Byte) : Prog.wellFormed (transmit bw rw) = true := by
  rw [transmit_eq_transmissions, wellFormed_append, wellFormed_transmission rfl (by decide),
    wellFormed_transmission rfl (by decide), Bool.and_self]

theorem wellFormed_refreshSeq : Prog.wellFormed refreshSeq = true := rfl

theorem wellFormed_postWait : Prog.wellFormed postWait = true := rfl

theorem wellFormed_sleep : Prog.wellFormed sleep = true := rfl

theorem wellFormed_updateProg (b r : List Byte) : Prog.wellFormed (updateProg b r) = true := by
  have hclear : Prog.wellFormed (tag .sleeping [.clearDirty]) = true := rfl
  simp only [updateProg, List.flatten_cons, List.flatten_nil, List.append_nil, wellFormed_append,
    wellFormed_wake, wellFormed_transmit, wellFormed_refreshSeq, wellFormed_postWait, wellFormed_sleep,
    hclear, Bool.and_self]

theorem initProg_eq_cons (b r : List Byte) : initProg b r = (.resetting, .cfg) :: updateProg b r := rfl

theorem wellFormed_initProg (b r : List Byte) : Prog.wellFormed (initProg b r) = true := by
  rw [initProg_eq_cons, wellFormed_cons]
  exact ⟨rfl, rfl, wellFormed_updateProg b r⟩

theorem wellFormed_blankProg (wakes : Bool) : Prog.wellFormed (blankProg wakes) = true := by
  cases wakes <;>
    simp [blankProg, wellFormed_append, wellFormed_wake, wellFormed_transmit, wellFormed_refreshSeq,
      wellFormed_postWait, wellFormed_sleep]

/-! ### Lengths -/

theorem Site.emit_length (x : Site) : x.emit.length = (x.block Config.params).length + 1 := by
  simp [Site.emit, cmdSeq]

theorem wake_length : wake.length = 155 := by
  simp [wake, resetPulse, initCmds, lutLoad, Site.emit_length, Site.block]

theorem transmit_length (bw rw : List Byte) : (transmit bw rw).length = bw.length + rw.length + 6 := by
  simp [transmit]
  omega

theorem blackWire_length (fb : List Byte) : (blackWire fb).length = 2 * fb.length := by
  induction fb with
  | nil => rfl
  | cons b fb ih =>
    rw [← List.singleton_append, blackWire_append, List.length_append, ih]
    simp [blackWire, expandBytes]
    omega

theorem updateProg_length (mB mR : Memory) :
    (updateProg (Memory.bytes mB) (Memory.bytes mR)).length = 15181 := by
  have htail : refreshSeq.length = 2 ∧ postWait.length = 1 ∧ sleep.length = 16 := ⟨rfl, rfl, rfl⟩
  simp [updateProg, wake_length, transmit_length, blackWire_length, redWire, htail, planeBytes_eq]

/-! ### Events -/

/-- The events of a program in two parts, each with the low samples of its own busy waits. -/
theorem progEvents_append_of_busyWaits {p : Prog} {ks : List Nat} (h : ks.length = busyWaits p) (q : Prog)
    (ls : List Nat) : progEvents (p ++ q) (ks ++ ls) = progEvents p ks ++ progEvents q ls := by
  induction p generalizing ks with
  | nil =>
    obtain rfl : ks = [] := List.eq_nil_of_length_eq_zero h
    rfl
  | cons x p ih =>
    obtain ⟨ph, a⟩ := x
    cases a with
    | waitBusy =>
      cases ks with
      | nil => simp [busyWaits] at h
      | cons k ks =>
        have := ih (ks := ks) (by simpa [busyWaits] using h)
        simp [progEvents, this]
    | _ =>
      have := ih (ks := ks) (by simpa [busyWaits] using h)
      simp [progEvents, this]

/-- The same when the first part has one busy wait. -/
theorem progEvents_append_of_one {p : Prog} (h : busyWaits p = 1) (q : Prog) (k : Nat) (ks : List Nat) :
    progEvents (p ++ q) (k :: ks) = progEvents p [k] ++ progEvents q ks :=
  progEvents_append_of_busyWaits (ks := [k]) h.symm q ks

theorem busyWaits_cmdSeq (ph : Phase) (c : Command) (bs : List Byte) :
    busyWaits (tag ph (cmdSeq c bs)) = 0 :=
  busyWaits_tag ph (by simp [cmdSeq])

/-- The events of a command with its data block, and then of what follows. -/
theorem progEvents_cmdSeq_append (ph : Phase) (c : Command) (bs : List Byte) (q : Prog) (ks : List Nat) :
    progEvents (tag ph (cmdSeq c bs) ++ q) ks = blockEvents c bs ++ progEvents q ks := by
  rw [progEvents_append (busyWaits_cmdSeq ph c bs), progEvents_cmdSeq]

theorem progEvents_busyWait_append (ph : Phase) (q : Prog) (k : Nat) (ks : List Nat) :
    progEvents (tag ph [.waitBusy] ++ q) (k :: ks) = busyWaitEvents k ++ progEvents q ks := rfl

theorem busyWaits_wake : busyWaits wake = 1 := by
  have hpulse : busyWaits resetPulse = 0 := rfl
  have hwait : busyWaits (tag .initializing [.waitBusy]) = 1 := rfl
  have hlut : busyWaits (tag .initializing lutLoad) = 0 :=
    busyWaits_tag _ (by simp [lutLoad, Site.emit, cmdSeq])
  simp only [wake, initCmds_eq_blocks, Site.emit, busyWaits_append, busyWaits_cmdSeq, hpulse, hwait, hlut]

theorem progEvents_wake (k : Nat) : progEvents wake [k] = wakeEvents k := by
  have hpulse : progEvents resetPulse [] = [.rst .low, .wait 200000, .rst .high, .wait 200000] := rfl
  rw [wake, progEvents_append rfl, hpulse, initCmds_eq_blocks]
  simp only [lutLoad, Site.emit, List.flatMap_cons, List.flatMap_nil, List.append_nil, tag_append,
    progEvents_cmdSeq_append, progEvents_cmdSeq, progEvents_busyWait_append]
  simp [wakeEvents, Site.command, Site.block, lutCommand]

theorem progEvents_transmission (ph : Phase) (c : Command) (bs : List Byte) :
    progEvents (transmission ph c bs) [] =
      [.cmd (Config.opcode c), .wait 2000] ++ bs.map Event.data ++ [.wait 2000] := by
  have hdata : busyWaits (tag ph (bs.map MicroAction.dat)) = 0 := busyWaits_tag ph (by simp)
  have hbody : progEvents (tag ph (bs.map MicroAction.dat ++ [.wait Config.tTx])) [] =
      bs.map Event.data ++ [.wait 2000] := by
    rw [tag_append, progEvents_append hdata, progEvents_data]
    rfl
  exact congrArg ([.cmd (Config.opcode c), .wait 2000] ++ ·) hbody

theorem busyWaits_transmission (ph : Phase) (c : Command) (bs : List Byte) :
    busyWaits (transmission ph c bs) = 0 :=
  busyWaits_tag ph (by simp)

theorem busyWaits_transmit (bw rw : List Byte) : busyWaits (transmit bw rw) = 0 := by
  rw [transmit_eq_transmissions, busyWaits_append, busyWaits_transmission, busyWaits_transmission]

theorem progEvents_transmit (bw rw : List Byte) :
    progEvents (transmit bw rw) [] = transmitEvents bw rw := by
  rw [transmit_eq_transmissions, progEvents_append (busyWaits_transmission _ _ _),
    progEvents_transmission, progEvents_transmission]
  simp [transmitEvents]

theorem progEvents_refreshProg (k : Nat) :
    progEvents refreshProg [k] = busyWaitEvents k ++ [.cmd 0x12] := rfl

theorem busyWaits_updateProg (b r : List Byte) : busyWaits (updateProg b r) = 3 := by
  have htail : busyWaits refreshSeq = 1 ∧ busyWaits postWait = 1 ∧ busyWaits sleep = 0 ∧
      busyWaits (tag .sleeping [.clearDirty]) = 0 := ⟨rfl, rfl, rfl, rfl⟩
  simp [updateProg, busyWaits_append, busyWaits_wake, busyWaits_transmit, htail]

/-- UPDATE's events, whatever the planes and the busy levels (42_sequencer.md R189). -/
theorem progEvents_updateProg (b r : List Byte) (k1 k2 k3 : Nat) :
    progEvents (updateProg b r) [k1, k2, k3] =
      wakeEvents k1 ++ transmitEvents (blackWire b) r ++ refreshAndSleepEvents k2 k3 := by
  have hrefresh : progEvents refreshSeq [k2] = busyWaitEvents k2 ++ [.cmd 0x12] := rfl
  have hpost : progEvents postWait [k3] = busyWaitEvents k3 := List.append_nil _
  have hsleep : progEvents (sleep ++ tag .sleeping [.clearDirty]) [] = sleepEvents := rfl
  simp only [updateProg, List.flatten_cons, List.flatten_nil, List.append_nil]
  rw [progEvents_append_of_one busyWaits_wake, progEvents_append (busyWaits_transmit _ _),
    progEvents_append_of_one rfl, progEvents_append_of_one rfl, progEvents_wake, progEvents_transmit,
    hrefresh, hpost, hsleep]
  simp only [redWire, refreshAndSleepEvents, List.append_assoc]

theorem progEvents_initProg (b r : List Byte) (ks : List Nat) :
    progEvents (initProg b r) ks = .cfg :: progEvents (updateProg b r) ks := rfl

theorem busyWaits_initProg (b r : List Byte) : busyWaits (initProg b r) = 3 := by
  have hcfg : busyWaits (tag .resetting [.cfg]) = 0 := rfl
  rw [initProg, busyWaits_append, hcfg, busyWaits_updateProg]

end Sys2Proof.Machine
end

section
/-! What a request, a host port, the block's turn and so a whole step can do, as one inductive relation
each: every proof about all steps is a case analysis on these. -/

namespace Sys2Proof.Machine

/-- What a request can do to the state it runs on (44_host_operations.md R241). -/
inductive RequestEffect (s : State) : State → Prop
  /-- Only the refused mark is set. -/
  | refuse (r : RefuseReason) : RequestEffect s (s.refuse r)
  /-- The request waits. -/
  | hold (q : BitVec 3) (hq : reservedCode q = false) : RequestEffect s (s.hold q)
  /-- A program is started. -/
  | start (o : Op) (p : Prog) (hf : s.fault = none) (ho : s.op = none) (hp : p ≠ [])
      (hwf : Prog.wellFormed p = true) : RequestEffect s (s.start o p)
  /-- BUSY is answered. -/
  | answer (hf : s.fault = none) (ho : s.op = none) :
      RequestEffect s { s.sampled with
        resp := s.resp ++ [.busyr (busyIndication s.busyLevel)]
        pending := none }

/-- What a host action that is no request can do (44_host_operations.md R253). -/
inductive PortEffect (s : State) : State → Prop
  | stay : PortEffect s s
  | refuse (r : RefuseReason) : PortEffect s (s.refuse r)
  | returns (v : HostValue) : PortEffect s (s.returns v)
  | race (ho : s.op.isSome = true) : PortEffect s (s.raiseFault .hostRace)
  | writePlane (p : Plane) (i : Nat) (v : Byte) (ho : s.op = none) (hi : i < Config.planeBytes) :
      PortEffect s (s.setPlane p (Memory.write (s.plane p) i v))
  | writeDirty (v : Bool) (ho : s.op = none) : PortEffect s (s.writeDirty v)

/-- What the block's turn can do (42_sequencer.md R172, 44_host_operations.md R242). -/
inductive BlockEffect (s : State) : State → Prop
  | stay : BlockEffect s s
  /-- The head of the program has its effect. -/
  | micro {ph : Phase} {a : MicroAction} {rest : Prog} (hf : s.fault = none)
      (hp : s.prog = (ph, a) :: rest) (he : a.emitted = true)
      (hr : a.onWire = true → s.transportReady = true) : BlockEffect s (s.afterMicro ph a rest).settle
  /-- The request that waited runs. -/
  | held {t : State} (h : RequestEffect { s with pending := none } t) : BlockEffect s t

theorem requestStep_requestEffect {s t : State} {q : BitVec 3} (h : requestStep q s = .next t) :
    RequestEffect s t := by
  rcases requestStep_effect h with ⟨r, rfl⟩ | ⟨-, hq, rfl⟩ | ⟨hf, ho, o, p, rfl, hp, hprog⟩ |
    ⟨hf, ho, rfl⟩
  · exact .refuse r
  · exact .hold q hq
  · refine .start o p hf ho hp ?_
    rcases hprog with rfl | ⟨-, rfl | rfl | rfl⟩
    · exact wellFormed_initProg _ _
    · exact wellFormed_updateProg _ _
    · exact wellFormed_refreshSeq
    · exact wellFormed_blankProg _
  · exact .answer hf ho

theorem hostStep_portEffect {s t : State} {a : HostAction} (ha : ∀ q, a ≠ .request q)
    (h : hostStep a s = .next t) : PortEffect s t := by
  cases a with
  | request q => exact absurd rfl (ha q)
  | fbr p i =>
    injection h with h
    rcases s.fbr_cases p i with ⟨-, e⟩ | ⟨q, -, e⟩ <;> rw [← h, e]
    · exact .refuse _
    · exact .returns _
  | fbw p i v =>
    injection h with h
    rcases s.fbw_cases p i v with ⟨-, e⟩ | ⟨q, -, ho, e⟩ | ⟨q, hq, ho, e⟩ <;> rw [← h, e]
    · exact .refuse _
    · exact .race ho
    · exact .writePlane q i v ho (framebufferAt_eq_some.mp hq).2
  | dirtyWrite v =>
    injection h with h
    rcases s.dirtyPort_cases v with ⟨ho, e⟩ | ⟨ho, e⟩ <;> rw [← h, e]
    · exact .race ho
    · exact .writeDirty v ho
  | dirtyRead | status | readResp =>
    injection h with h
    rw [← h]
    exact .returns _
  | statusWrite v =>
    injection h with h
    rw [← h]
    exact .stay

theorem blockStep_blockEffect {s t : State} (h : blockStep s = .next t) : BlockEffect s t := by
  rcases blockStep_cases h with ⟨-, rfl⟩ | ⟨hf, ph, a, rest, hp, hm⟩ | ⟨-, -, -, rfl⟩ |
    ⟨-, -, -, q, -, hq⟩
  · exact .stay
  · rcases microStep_next hm with ⟨-, -, rfl⟩ | ⟨he, hr, rfl⟩
    · exact .stay
    · exact .micro hf hp he hr
  · exact .stay
  · exact .held (requestStep_requestEffect hq)

/-- The step on the host's turn. -/
theorem step_of_act {s : State} {a : HostAction} {turns : List HostTurn} (h : s.host = .act a :: turns) :
    step s = hostStep a { s with host := turns } := by
  simp [step, agentStep, h]

/-- Whose turn it is: the block's, or the host's. -/
theorem blockTurn_or_act (s : State) :
    (∃ turns, s.blockTurn turns) ∨ ∃ a turns, s.host = .act a :: turns := by
  cases hh : s.host with
  | nil => exact .inl ⟨[], .inr ⟨hh, rfl⟩⟩
  | cons x turns =>
    cases x with
    | act a => exact .inr ⟨a, turns, rfl⟩
    | pass => exact .inl ⟨turns, .inl hh⟩

/-- What a step can do, if it answers a next state: it takes the turn off the host's list, and then the
block moves, a request runs, or another port answers. -/
theorem step_effect {s t : State} (h : step s = .next t) :
    (∃ turns, s.blockTurn turns ∧ BlockEffect { s with host := turns } t) ∨
    (∃ q turns, s.host = .act (.request q) :: turns ∧ RequestEffect { s with host := turns } t) ∨
    (∃ a turns, s.host = .act a :: turns ∧ PortEffect { s with host := turns } t) := by
  rcases blockTurn_or_act s with ⟨turns, hb⟩ | ⟨a, turns, ha⟩
  · rw [step_of_blockTurn hb] at h
    exact .inl ⟨turns, hb, blockStep_blockEffect h⟩
  · rw [step_of_act ha] at h
    by_cases hq : ∃ q, a = .request q
    · obtain ⟨q, rfl⟩ := hq
      exact .inr (.inl ⟨q, turns, ha, requestStep_requestEffect h⟩)
    · exact .inr (.inr ⟨a, turns, ha, hostStep_portEffect (fun q e => hq ⟨q, e⟩) h⟩)

/-- What every effect keeps, and the taking of a turn and of the waiting request keep, every step keeps. -/
theorem step_keeps {I : State → Prop} (hturn : ∀ s turns, I s → I { s with host := turns })
    (hdrop : ∀ s, I s → I { s with pending := none })
    (hreq : ∀ s t, I s → RequestEffect s t → I t) (hport : ∀ s t, I s → PortEffect s t → I t)
    (hmicro : ∀ s ph a rest, I s → s.prog = (ph, a) :: rest → a.emitted = true →
      (a.onWire = true → s.transportReady = true) → I (s.afterMicro ph a rest).settle)
    {s t : State} (hs : I s) (h : step s = .next t) : I t := by
  rcases step_effect h with ⟨turns, -, hb⟩ | ⟨q, turns, -, hr⟩ | ⟨a, turns, -, hp⟩
  · have hs' := hturn s turns hs
    cases hb with
    | stay => exact hs'
    | micro _ hp he hr => exact hmicro _ _ _ _ hs' hp he hr
    | held hr => exact hreq _ _ (hdrop _ hs') hr
  · exact hreq _ _ (hturn s turns hs) hr
  · exact hport _ _ (hturn s turns hs) hp

/-! ### What the ports leave alone -/

/-- The sequencer, the lines, the trace and the responses are the same. -/
structure SameSequencer (s t : State) : Prop where
  op_eq : t.op = s.op
  prog_eq : t.prog = s.prog
  phase_eq : t.phase = s.phase
  rst_eq : t.rst = s.rst
  dc_eq : t.dc = s.dc
  trace_eq : t.trace = s.trace
  resp_eq : t.resp = s.resp

theorem SameSequencer.withHost (s : State) (turns : List HostTurn) :
    SameSequencer s { s with host := turns } := ⟨rfl, rfl, rfl, rfl, rfl, rfl, rfl⟩

theorem SameSequencer.withPending (s : State) (q : Option (BitVec 3)) :
    SameSequencer s { s with pending := q } := ⟨rfl, rfl, rfl, rfl, rfl, rfl, rfl⟩

theorem SameSequencer.refuse (s : State) (r : RefuseReason) : SameSequencer s (s.refuse r) :=
  ⟨rfl, rfl, rfl, rfl, rfl, rfl, rfl⟩

theorem PortEffect.sameSequencer {s t : State} (h : PortEffect s t) : SameSequencer s t := by
  cases h with
  | writePlane p _ _ _ _ => cases p <;> exact ⟨rfl, rfl, rfl, rfl, rfl, rfl, rfl⟩
  | _ => exact ⟨rfl, rfl, rfl, rfl, rfl, rfl, rfl⟩

theorem PortEffect.pending_eq {s t : State} (h : PortEffect s t) : t.pending = s.pending := by
  cases h <;> simp

end Sys2Proof.Machine
end

section
/-! The state of the sequencer stays coherent (10_state.md R24 to R26, 42_sequencer.md R193, R196). -/

namespace Sys2Proof.Machine

theorem ControlInv.of_sameSequencer {s t : State} (hs : ControlInv s) (h : SameSequencer s t)
    (hpending : ∀ q, t.pending = some q → reservedCode q = false) : ControlInv t where
  idle_iff := by rw [h.op_eq, h.prog_eq]; exact hs.idle_iff
  idle_phase := by rw [h.op_eq, h.phase_eq]; exact hs.idle_phase
  head_phase := by rw [h.prog_eq, h.phase_eq]; exact hs.head_phase
  prog_wf := by rw [h.prog_eq]; exact hs.prog_wf
  pending_wf := hpending

/-- A state with a program in flight, or with the last micro-action just done, settles into coherence. -/
theorem ControlInv.settle {s : State} (ho : s.op.isSome = true) (hwf : Prog.wellFormed s.prog = true)
    (hpending : ∀ q, s.pending = some q → reservedCode q = false) : ControlInv s.settle := by
  cases hp : s.prog with
  | nil =>
    rw [State.settle_nil hp]
    exact { idle_iff := by simp [hp], idle_phase := fun _ => .inr rfl, head_phase := by simp [hp]
            prog_wf := by simp [hp, Prog.wellFormed], pending_wf := hpending }
  | cons x rest =>
    obtain ⟨ph, a⟩ := x
    have hne : s.op ≠ none := Option.isSome_iff_ne_none.mp ho
    rw [State.settle_cons hp]
    exact { idle_iff := by simp [hp, hne], idle_phase := fun h => absurd h hne
            head_phase := by simp +contextual [hp], prog_wf := hwf, pending_wf := hpending }

theorem ControlInv.start (s : State) (o : Op) {p : Prog} (hp : p ≠ [])
    (hwf : Prog.wellFormed p = true) : ControlInv (s.start o p) := by
  rw [← State.settle_start s o hp]
  exact ControlInv.settle rfl hwf (by simp)

theorem wellFormed_microRest {l : Level} {ph : Phase} {a : MicroAction} {rest : Prog}
    (h : Prog.wellFormed ((ph, a) :: rest) = true) :
    Prog.wellFormed (microRest l ph a rest) = true := by
  obtain ⟨hph, -, hrest⟩ := wellFormed_cons.mp h
  unfold microRest
  split
  · simp only [wellFormed_cons, hph, hrest, and_true, true_and]
    exact ⟨rfl, rfl, rfl⟩
  · exact hrest

theorem ControlInv.afterMicro {s : State} {ph : Phase} {a : MicroAction} {rest : Prog}
    (hs : ControlInv s) (hp : s.prog = (ph, a) :: rest) :
    ControlInv (s.afterMicro ph a rest).settle := by
  have ho : s.op ≠ none := fun h => by simp [hs.idle_iff.mp h] at hp
  have hwf : Prog.wellFormed ((ph, a) :: rest) = true := hp ▸ hs.prog_wf
  exact ControlInv.settle (Option.isSome_iff_ne_none.mpr ho) (wellFormed_microRest hwf) hs.pending_wf

theorem ControlInv.request {s t : State} (hs : ControlInv s) (h : RequestEffect s t) : ControlInv t := by
  cases h with
  | refuse r => exact hs.of_sameSequencer (.refuse s r) hs.pending_wf
  | hold q hq =>
    exact hs.of_sameSequencer (.withPending s (some q)) fun _ h => Option.some.inj h ▸ hq
  | start o p _ _ hp hwf => exact ControlInv.start s o hp hwf
  | answer _ _ => exact ⟨hs.idle_iff, hs.idle_phase, hs.head_phase, hs.prog_wf, by simp⟩

theorem ControlInv.withHost {s : State} (hs : ControlInv s) (turns : List HostTurn) :
    ControlInv { s with host := turns } :=
  hs.of_sameSequencer (.withHost s turns) hs.pending_wf

theorem ControlInv.dropPending {s : State} (hs : ControlInv s) : ControlInv { s with pending := none } :=
  hs.of_sameSequencer (.withPending s none) (by simp)

theorem ControlInv.port {s t : State} (hs : ControlInv s) (h : PortEffect s t) : ControlInv t :=
  hs.of_sameSequencer h.sameSequencer (h.pending_eq ▸ hs.pending_wf)

/-- Settles O49: each effect of a step keeps the invariant. -/
theorem controlInvKept : Obligations.ControlInvKept := by
  intro s t hs h
  exact step_keeps (fun _ turns hs => hs.withHost turns) (fun _ hs => hs.dropPending)
    (fun _ _ hs h => hs.request h) (fun _ _ hs h => hs.port h)
    (fun _ _ _ _ hs hp _ _ => hs.afterMicro hp) hs h

end Sys2Proof.Machine
end

section
/-! The other properties of every step: the lines, the state before the first INIT, what the trace gains,
the planes, the marks. -/

namespace Sys2Proof.Machine

/-! ### The lines -/

theorem PinsInv.of_sameSequencer {s t : State} (hs : PinsInv s) (h : SameSequencer s t) : PinsInv t where
  dc_eq := by rw [h.dc_eq, h.trace_eq]; exact hs.dc_eq
  rst_eq := by rw [h.rst_eq, h.trace_eq]; exact hs.rst_eq

theorem PinsInv.request {s t : State} (hs : PinsInv s) (h : RequestEffect s t) : PinsInv t := by
  cases h with
  | refuse r => exact hs.of_sameSequencer (.refuse s r)
  | hold q _ => exact hs.of_sameSequencer (.withPending s (some q))
  | start o p _ _ _ _ => exact ⟨hs.dc_eq, hs.rst_eq⟩
  | answer _ _ => exact ⟨by simpa using hs.dc_eq, by simpa using hs.rst_eq⟩

/-- A micro-action drives the lines by its event, if it has one. -/
theorem PinsInv.afterMicro {s : State} (hs : PinsInv s) (ph : Phase) (a : MicroAction) (rest : Prog) :
    PinsInv (s.afterMicro ph a rest).settle := by
  obtain ⟨hdc, hrst⟩ := hs
  cases a <;> constructor <;> simp [State.afterMicro, hdc, hrst]

/-- Settles O52: only an event moves a line, and to where `dcAfter` and `rstAfter` say. -/
theorem pinsInvKept : Obligations.PinsInvKept := by
  intro s t hs h
  exact step_keeps (fun s turns hs => hs.of_sameSequencer (.withHost s turns))
    (fun s hs => hs.of_sameSequencer (.withPending s none)) (fun _ _ hs h => hs.request h)
    (fun _ _ hs h => hs.of_sameSequencer h.sameSequencer)
    (fun _ ph a rest hs _ _ _ => hs.afterMicro ph a rest) hs h

/-! ### Before the first INIT -/

theorem FreshInv.of_sameSequencer {s t : State} (hs : FreshInv s) (h : SameSequencer s t) :
    FreshInv t where
  idle := by rw [h.phase_eq, h.op_eq]; exact hs.idle
  samples := by rw [h.phase_eq, h.trace_eq]; exact hs.samples
  answers := by rw [h.phase_eq, h.resp_eq]; exact hs.answers

theorem FreshInv.of_initialized {s : State} (h : s.phase ≠ .uninitialized) : FreshInv s :=
  ⟨fun h' => absurd h' h, fun h' => absurd h' h, fun h' => absurd h' h⟩

/-- A step of the sequencer ends in Ready or in a phase of an operation in flight. -/
theorem settle_phase_ne_uninitialized {s : State} (hwf : Prog.wellFormed s.prog = true) :
    s.settle.phase ≠ .uninitialized := by
  cases hp : s.prog with
  | nil => simp [State.settle_nil hp]
  | cons x rest =>
    rw [hp, wellFormed_cons] at hwf
    obtain ⟨hph, -, -⟩ := hwf
    rw [State.settle_cons hp]
    intro h
    simp only at h
    simp [h, Phase.inFlight] at hph

theorem FreshInv.request {s t : State} (hs : FreshInv s) (h : RequestEffect s t) : FreshInv t := by
  cases h with
  | refuse r => exact hs.of_sameSequencer (.refuse s r)
  | hold q _ => exact hs.of_sameSequencer (.withPending s (some q))
  | start o p _ _ hp hwf =>
    rw [← State.settle_start s o hp]
    exact .of_initialized (settle_phase_ne_uninitialized hwf)
  | answer _ ho =>
    refine ⟨fun _ => ho, fun hph => ?_, fun hph => ?_⟩
    · simpa [isSample] using hs.samples hph
    · simpa [or_imp, forall_and, isBusyr] using hs.answers hph

/-- Settles O53: a step of the sequencer leaves the Uninitialized phase, and so does an accepted request but
BUSY's. -/
theorem freshInvKept : Obligations.FreshInvKept := by
  intro s t hc hs h
  refine (step_keeps (I := fun s => ControlInv s ∧ FreshInv s) ?_ ?_ ?_ ?_ ?_ ⟨hc, hs⟩ h).2
  · exact fun s turns ⟨hc, hs⟩ => ⟨hc.withHost turns, hs.of_sameSequencer (.withHost s turns)⟩
  · exact fun s ⟨hc, hs⟩ => ⟨hc.dropPending, hs.of_sameSequencer (.withPending s none)⟩
  · exact fun _ _ ⟨hc, hs⟩ h => ⟨hc.request h, hs.request h⟩
  · exact fun _ _ ⟨hc, hs⟩ h => ⟨hc.port h, hs.of_sameSequencer h.sameSequencer⟩
  · intro s ph a rest ⟨hc, _⟩ hp _ _
    have hwf : Prog.wellFormed ((ph, a) :: rest) = true := hp ▸ hc.prog_wf
    exact ⟨hc.afterMicro hp, .of_initialized (settle_phase_ne_uninitialized (wellFormed_microRest hwf))⟩

/-! ### The trace -/

/-- What a request adds to the trace: nothing, or BUSY's sample. -/
theorem RequestEffect.trace {s t : State} (h : RequestEffect s t) :
    t.trace = s.trace ∨ ∃ l, t.trace = .sample l :: s.trace := by
  cases h with
  | answer _ _ => exact .inr ⟨_, rfl⟩
  | _ => exact .inl rfl

/-- The only opcode byte 0x07 is deep-sleep's (00_scope.md R9, 42_sequencer.md R196). -/
theorem opcode_ne_deepSleep {c : Command} (hc : c ≠ .dslp) : Config.opcode c ≠ 0x07 :=
  fun h => hc (OpcodeMap.opcode_injective Config.params.distinct h)

/-- The event a micro-action adds, if it adds one; a wire event only from a wire micro-action. -/
theorem microEvents_cases {a : MicroAction} (he : a.emitted = true) (l : Level) :
    microEvents l a = [] ∨
    ∃ e, microEvents l a = [e] ∧ e ≠ .cmd 0x07 ∧
      (∀ b, e = .cmd b → ∃ c, a = .cmd c ∧ b = Config.opcode c) ∧ (∀ b, e = .data b → a = .dat b) := by
  cases a with
  | clearDirty => exact .inl rfl
  | cmd c =>
    have hc : c ≠ .dslp := by simpa [MicroAction.emitted] using he
    exact .inr ⟨_, rfl, by simpa using opcode_ne_deepSleep hc, by simp +contextual, by simp⟩
  | _ => exact .inr ⟨_, rfl, by simp, by simp, by simp⟩

theorem blockTurn_not_act {s : State} {turns : List HostTurn} (h : s.blockTurn turns) (a : HostAction)
    (turns' : List HostTurn) : s.host ≠ .act a :: turns' := by
  rcases h with h | ⟨h, -⟩ <;> simp [h]

/-- Settles O56: the host's ports add nothing, a request a sample at most, and the head of the program its
own event. -/
theorem traceGrowth : Obligations.TraceGrowth := by
  intro s t h
  rcases step_effect h with ⟨turns, hb, he⟩ | ⟨q, turns, -, hr⟩ | ⟨a, turns, -, hp⟩
  · cases he with
    | stay => exact .inl rfl
    | @micro ph a rest _ hp he _ =>
      rcases microEvents_cases he s.busyLevel with hnone | ⟨e, hone, hne, hcmd, hdata⟩
      · rw [State.settle_trace]
        exact .inl (congrArg (· ++ s.trace) hnone)
      · rw [State.settle_trace]
        refine .inr ⟨e, congrArg (· ++ s.trace) hone, hne, fun b hb' => ⟨?_, blockTurn_not_act hb⟩,
          fun b hb' => ⟨?_, blockTurn_not_act hb⟩⟩
        · obtain ⟨c, rfl, rfl⟩ := hcmd b hb'
          exact ⟨ph, c, rest, hp, rfl⟩
        · obtain rfl := hdata b hb'
          exact ⟨ph, rest, hp⟩
    | held hr => exact hr.trace.imp_right fun ⟨l, hl⟩ => ⟨_, hl, by simp, by simp, by simp⟩
  · exact hr.trace.imp_right fun ⟨l, hl⟩ => ⟨_, hl, by simp, by simp, by simp⟩
  · exact .inl hp.sameSequencer.trace_eq

/-! ### The planes -/

theorem RequestEffect.planes {s t : State} (h : RequestEffect s t) :
    t.fbBlack = s.fbBlack ∧ t.fbRed = s.fbRed := by
  cases h <;> exact ⟨rfl, rfl⟩

theorem BlockEffect.planes {s t : State} (h : BlockEffect s t) :
    t.fbBlack = s.fbBlack ∧ t.fbRed = s.fbRed := by
  cases h with
  | stay => exact ⟨rfl, rfl⟩
  | micro _ _ _ _ => exact ⟨State.settle_fbBlack _, State.settle_fbRed _⟩
  | held hr => exact hr.planes

/-- Only a port write on an idle block changes a plane (20_memory.md R55). -/
theorem PortEffect.planes {s t : State} (h : PortEffect s t) (ho : s.op.isSome = true) :
    t.fbBlack = s.fbBlack ∧ t.fbRed = s.fbRed := by
  cases h with
  | writePlane _ _ _ hidle _ => simp [hidle] at ho
  | _ => exact ⟨rfl, rfl⟩

/-- Settles O57: the block and the requests change no plane at all, a port only on an idle block. -/
theorem planesKeptInFlight : Obligations.PlanesKeptInFlight := by
  refine ⟨fun s t ho h => ?_, fun s t turns hb h => ?_⟩
  · rcases step_effect h with ⟨turns, -, he⟩ | ⟨q, turns, -, hr⟩ | ⟨a, turns, -, hp⟩
    · exact he.planes
    · exact hr.planes
    · exact hp.planes ho
  · rw [step_of_blockTurn hb] at h
    exact (blockStep_blockEffect h).planes

/-- The state with other planes and another dirty flag. -/
def State.withPlanes (s : State) (black red : Memory) (d : Bool) : State :=
  { s with fbBlack := black, fbRed := red, dirty := d }

theorem State.settle_withPlanes (s : State) (black red : Memory) (d : Bool) :
    (s.withPlanes black red d).settle = s.settle.withPlanes black red d := by
  cases hp : s.prog <;> simp [State.settle, State.complete, State.withPlanes, hp]

/-- A micro-action depends neither on the planes nor on `dirty`. -/
theorem microStep_withPlanes {s t : State} {ph : Phase} {a : MicroAction} {rest : Prog}
    (h : microStep ph a rest s = .next t) (black red : Memory) (d : Bool) :
    ∃ d', microStep ph a rest (s.withPlanes black red d) = .next (t.withPlanes black red d') := by
  rcases microStep_next h with ⟨hw, hr, rfl⟩ | ⟨he, hr, rfl⟩
  · exact ⟨d, microStep_stalled hw hr⟩
  · refine ⟨dirtyAfter d a, ?_⟩
    rw [microStep_of_ready (s := s.withPlanes black red d) he hr, ← State.settle_withPlanes]
    rfl

/-- A faulted block's turn only passes (60_exceptions.md R271). -/
theorem step_of_faulted {s : State} {turns : List HostTurn} {r : Fault} (hb : s.blockTurn turns)
    (hf : s.fault = some r) : step s = .next { s with host := turns } := by
  simp [step_of_blockTurn hb, blockStep, hf]

/-- Settles O58: a faulted block stays in both runs, and else the same micro-action has the same effect. -/
theorem sequencerIgnoresPlanes : Obligations.SequencerIgnoresPlanes := by
  intro s t black red d turns hb hp h
  have hb' : (s.withPlanes black red d).blockTurn turns := hb
  obtain ⟨⟨ph, a⟩, rest, hp⟩ := List.exists_cons_of_ne_nil hp
  change ∃ d', step (s.withPlanes black red d) = .next (t.withPlanes black red d')
  cases hf : s.fault with
  | none =>
    have hf' : (s.withPlanes black red d).fault = none := hf
    rw [step_of_prog hb hf hp] at h
    rw [step_of_prog hb' hf' hp]
    exact microStep_withPlanes h black red d
  | some r =>
    have hf' : (s.withPlanes black red d).fault = some r := hf
    rw [step_of_faulted hb hf] at h
    injection h with h
    exact ⟨d, h ▸ step_of_faulted hb' hf'⟩

/-! ### The marks and the responses -/

/-- From `s` to `t` a recorded fault stays, the refused mark stays and responses are only added (10_state.md
R37, R38). -/
structure MarksKept (s t : State) : Prop where
  fault : ∀ r, s.fault = some r → t.fault = some r
  refused : s.refused = true → t.refused = true
  resp : ∃ more, t.resp = s.resp ++ more

theorem MarksKept.of_eq {s t : State} (hf : t.fault = s.fault) (hr : t.refused = s.refused)
    (hresp : t.resp = s.resp) : MarksKept s t :=
  ⟨fun _ h => hf.trans h, fun h => hr.trans h, [], by rw [hresp, List.append_nil]⟩

theorem MarksKept.trans {s t u : State} (h : MarksKept s t) (h' : MarksKept t u) : MarksKept s u := by
  obtain ⟨more, hm⟩ := h.resp
  obtain ⟨more', hm'⟩ := h'.resp
  exact ⟨fun r hr => h'.fault r (h.fault r hr), fun hr => h'.refused (h.refused hr),
    more ++ more', by rw [hm', hm, List.append_assoc]⟩

theorem RequestEffect.marksKept {s t : State} (h : RequestEffect s t) : MarksKept s t := by
  cases h with
  | refuse r => exact ⟨fun _ h => h, fun _ => rfl, [], by simp⟩
  | answer _ _ => exact ⟨fun _ h => h, id, _, rfl⟩
  | _ => exact .of_eq rfl rfl rfl

theorem PortEffect.marksKept {s t : State} (h : PortEffect s t) : MarksKept s t := by
  cases h with
  | refuse _ => exact ⟨fun _ h => h, fun _ => rfl, [], by simp⟩
  | race _ => exact ⟨fun r hr => State.raiseFault_fault_some _ hr, id, [], by simp⟩
  | writePlane _ _ _ _ _ => exact .of_eq (by simp) (by simp) (by simp)
  | _ => exact .of_eq rfl rfl rfl

theorem settle_marksKept (s : State) : MarksKept s s.settle := ⟨by simp, by simp, s.settle_resp⟩

theorem afterMicro_marksKept (s : State) (ph : Phase) (a : MicroAction) (rest : Prog) :
    MarksKept s (s.afterMicro ph a rest) := .of_eq rfl rfl rfl

/-- Settles O60: each effect of a step keeps the marks, and so does their composition. -/
theorem marksNeverCleared : Obligations.MarksNeverCleared := by
  intro s t h
  have hkept : MarksKept s t :=
    step_keeps (I := MarksKept s) (fun _ _ h => h.trans (.of_eq rfl rfl rfl))
      (fun _ h => h.trans (.of_eq rfl rfl rfl)) (fun _ _ h h' => h.trans h'.marksKept)
      (fun _ _ h h' => h.trans h'.marksKept)
      (fun u ph a rest h _ _ _ =>
        h.trans ((afterMicro_marksKept u ph a rest).trans (settle_marksKept _)))
      (.of_eq rfl rfl rfl) h
  exact ⟨hkept.fault, hkept.refused, hkept.resp⟩

end Sys2Proof.Machine
end

section
/-! Runs of the block: one micro-action, a busy wait with its low samples, and so a whole program to its
completion, as one equation on states. -/

namespace Sys2Proof.Machine

/-! ### One step -/

theorem blockTurn_nil {s : State} (h : s.host = []) : s.blockTurn [] := .inr ⟨h, rfl⟩

/-- The block's step on a program whose head does not wait for the transport. -/
theorem step_afterMicro {s : State} {turns : List HostTurn} {ph : Phase} {a : MicroAction} {rest : Prog}
    (hb : s.blockTurn turns) (hf : s.fault = none) (hp : s.prog = (ph, a) :: rest)
    (he : a.emitted = true) (hr : a.onWire = true → s.transportReady = true) :
    step s = .next ({ s with host := turns }.afterMicro ph a rest).settle := by
  rw [step_of_prog hb hf hp]
  exact microStep_of_ready he hr

/-- The same where the host has no turn left. -/
theorem step_afterMicro_of_nil {s : State} {ph : Phase} {a : MicroAction} {rest : Prog}
    (hh : s.host = []) (hf : s.fault = none) (hp : s.prog = (ph, a) :: rest) (he : a.emitted = true)
    (hr : a.onWire = true → s.transportReady = true) :
    step s = .next (s.afterMicro ph a rest).settle := by
  have hs : { s with host := [] } = s := by rw [← hh]
  rw [step_afterMicro (blockTurn_nil hh) hf hp he hr, hs]

/-- The step of a micro-action that needs no transport. -/
theorem step_of_not_onWire {s : State} {ph : Phase} {a : MicroAction} {rest : Prog} (hh : s.host = [])
    (hf : s.fault = none) (hp : s.prog = (ph, a) :: rest) (he : a.emitted = true)
    (ha : a.onWire = false) : step s = .next (s.afterMicro ph a rest).settle :=
  step_afterMicro_of_nil hh hf hp he (ready_of_not_onWire ha s)

theorem busyLevel_of_cons {s : State} {l : Level} {more : List Level} (h : s.busyIn = l :: more) :
    s.busyLevel = l := by
  simp [State.busyLevel, h]

/-- Settles O24: the two levels of the sample, and what is left of the program. -/
theorem busyWaitSamples : Obligations.BusyWaitSamples := by
  intro s ph rest turns hb hf hp
  have hstep := step_afterMicro hb hf hp rfl (ready_of_not_onWire rfl s)
  refine ⟨fun ph' a' more hl hrest => ?_, fun o hl hrest ho => ?_, fun hl => ?_⟩
  · have hl' : { s with host := turns }.busyLevel = .high := hl
    rw [hstep, State.afterMicro_waitBusy_high hl', hrest, State.settle_cons rfl]
  · have hl' : { s with host := turns }.busyLevel = .high := hl
    rw [hstep, State.afterMicro_waitBusy_high hl', hrest, State.settle_nil rfl]
    simp [State.complete, ho]
  · have hl' : { s with host := turns }.busyLevel = .low := hl
    rw [hstep, State.afterMicro_waitBusy_low hl', State.settle_cons rfl]

/-! ### A busy wait -/

/-- The state after one low sample, its poll wait and its feed, which stands at the same wait again. -/
def State.afterPoll (s : State) (ph : Phase) (levels : List Level) : State :=
  { s with
    phase := ph
    trace := .feed :: .wait Config.params.tPoll :: .sample .low :: s.trace
    busyIn := levels
    draws := s.draws + 1 }

theorem run_poll {s : State} {ph : Phase} {rest : Prog} {levels : List Level} (hh : s.host = [])
    (hf : s.fault = none) (hp : s.prog = (ph, .waitBusy) :: rest) (hb : s.busyIn = .low :: levels) :
    Sys2Proof.core.run 3 s = .next (s.afterPoll ph levels) := by
  refine Eq.trans (run_succ (step_of_not_onWire hh hf hp rfl rfl) 2) ?_
  rw [State.afterMicro_waitBusy_low (busyLevel_of_cons hb), State.settle_cons rfl]
  refine Eq.trans (run_succ (step_of_not_onWire (by exact hh) (by exact hf) rfl rfl rfl) 1) ?_
  rw [State.afterMicro_wait, State.settle_cons rfl]
  refine Eq.trans (run_succ (step_of_not_onWire (by exact hh) (by exact hf) rfl rfl rfl) 0) ?_
  rw [run_zero, State.afterMicro_feed, State.settle_cons rfl]
  simp [State.afterPoll, hp, hb]

/-- The state after a busy wait that drew `k` low levels and then a high one, before it settles. -/
def State.afterBusyWait (s : State) (k : Nat) (rest : Prog) (more : List Level) : State :=
  { s with
    prog := rest
    trace := (busyWaitEvents k).reverse ++ s.trace
    busyIn := more
    draws := s.draws + (k + 1) }

/-- A poll and then a wait with `k` low levels is a wait with `k + 1`. -/
theorem State.afterBusyWait_afterPoll (s : State) (ph : Phase) (levels : List Level) (k : Nat) (rest : Prog)
    (more : List Level) :
    (s.afterPoll ph levels).afterBusyWait k rest more =
      { s.afterBusyWait (k + 1) rest more with phase := ph } := by
  simp [State.afterPoll, State.afterBusyWait, busyWaitEvents]
  omega

theorem run_busyWait {s : State} {ph : Phase} {rest : Prog} {k : Nat} {more : List Level}
    (hh : s.host = []) (hf : s.fault = none) (hp : s.prog = (ph, .waitBusy) :: rest)
    (hb : s.busyIn = List.replicate k .low ++ .high :: more) :
    Sys2Proof.core.run (3 * k + 1) s = .next (s.afterBusyWait k rest more).settle := by
  induction k generalizing s with
  | zero =>
    rw [run_succ (step_of_not_onWire hh hf hp rfl rfl), run_zero,
      State.afterMicro_waitBusy_high (busyLevel_of_cons hb), hb]
    rfl
  | succ k ih =>
    have hb : s.busyIn = .low :: (List.replicate k .low ++ .high :: more) := hb
    rw [show 3 * (k + 1) + 1 = 3 + (3 * k + 1) by omega, run_add (run_poll hh hf hp hb),
      ih (s := s.afterPoll ph _) hh hf hp rfl, State.afterBusyWait_afterPoll, State.settle_withPhase]

/-- Settles O26: `run_busyWait`, where more of the program follows. -/
theorem busyWaitRuns : Obligations.BusyWaitRuns := by
  intro s ph ph' a' rest k more hh hf hp hb
  rw [run_busyWait hh hf hp hb, State.settle_cons rfl]
  rfl

/-! ### A program -/

/-- The state after a whole program whose busy waits drew `ks` low levels, before it completes. -/
def State.afterProg (s : State) (p : Prog) (ks : List Nat) (more : List Level) : State :=
  { s with
    prog := []
    trace := (progEvents p ks).reverse ++ s.trace
    dc := (progEvents p ks).foldl driveDc s.dc
    rst := (progEvents p ks).foldl driveRst s.rst
    dirty := (p.map Prod.snd).foldl dirtyAfter s.dirty
    busyIn := more
    draws := s.draws + (ks.length + ks.sum) }

@[simp] theorem foldl_driveDc_busyWaitEvents (k : Nat) (d : Pin) :
    (busyWaitEvents k).foldl driveDc d = d := by
  induction k with
  | zero => rfl
  | succ k ih => simpa [busyWaitEvents] using ih

@[simp] theorem foldl_driveRst_busyWaitEvents (k : Nat) (d : Pin) :
    (busyWaitEvents k).foldl driveRst d = d := by
  induction k with
  | zero => rfl
  | succ k ih => simpa [busyWaitEvents] using ih

theorem State.afterProg_nil {s : State} {more : List Level} (hp : s.prog = []) (hb : s.busyIn = more) :
    s.afterProg [] [] more = s := by
  cases s
  subst hp hb
  simp [State.afterProg, progEvents]

theorem State.afterProg_afterBusyWait (s : State) (ph : Phase) (k : Nat) (ks : List Nat) (rest : Prog)
    (levels more : List Level) :
    (s.afterBusyWait k rest levels).afterProg rest ks more =
      s.afterProg ((ph, .waitBusy) :: rest) (k :: ks) more := by
  simp [State.afterProg, State.afterBusyWait, progEvents]
  omega

/-- A micro-action that is no busy wait, and then the rest of the program, when the transport takes every
unit. -/
theorem State.afterProg_afterMicro {s : State} (hs : s.stallIn = none) {a : MicroAction}
    (ha : a ≠ .waitBusy) (ph : Phase) (ks : List Nat) (rest : Prog) (more : List Level) :
    (s.afterMicro ph a rest).afterProg rest ks more = s.afterProg ((ph, a) :: rest) ks more := by
  cases a with
  | waitBusy => exact absurd rfl ha
  | _ => simp [State.afterProg, State.afterMicro, microRest, progEvents, hs]

/-- A program in flight runs to its completion: a step per micro-action and three per low sample
(42_sequencer.md R172, R176, R194). -/
theorem run_settle_prog {s : State} {p : Prog} {ks : List Nat} {more : List Level} (hh : s.host = [])
    (hf : s.fault = none) (hs : s.stallIn = none) (hp : s.prog = p) (hwf : Prog.wellFormed p = true)
    (hks : ks.length = busyWaits p) (hb : s.busyIn = busyScript ks ++ more) :
    Sys2Proof.core.run (p.length + 3 * ks.sum) s.settle = .next (s.afterProg p ks more).settle := by
  induction p generalizing s ks with
  | nil =>
    obtain rfl : ks = [] := List.eq_nil_of_length_eq_zero hks
    have hb : s.busyIn = more := hb
    rw [State.afterProg_nil hp hb]
    rfl
  | cons x p ih =>
    obtain ⟨ph, a⟩ := x
    obtain ⟨-, he, hrest⟩ := wellFormed_cons.mp hwf
    by_cases ha : a = .waitBusy
    · subst ha
      cases ks with
      | nil => simp [busyWaits] at hks
      | cons k ks =>
        have hks : ks.length = busyWaits p := by simpa [busyWaits] using hks
        have hb : s.busyIn = List.replicate k .low ++ .high :: (busyScript ks ++ more) := by
          simpa [busyScript] using hb
        rw [State.settle_cons hp,
          show ((ph, MicroAction.waitBusy) :: p).length + 3 * (k :: ks).sum =
            3 * k + 1 + (p.length + 3 * ks.sum) by simp; omega,
          run_add (run_busyWait (s := { s with phase := ph }) hh hf hp hb),
          ih (s := State.afterBusyWait { s with phase := ph } k p _) hh hf hs rfl hrest hks rfl,
          State.afterProg_afterBusyWait]
        exact congrArg Host.Outcome.next
          (State.settle_withPhase (s.afterProg ((ph, .waitBusy) :: p) (k :: ks) more) ph)
    · have hks : ks.length = busyWaits p := by simpa [busyWaits, ha] using hks
      have hready : a.onWire = true → s.transportReady = true := fun _ => by
        simp [State.transportReady, hs]
      rw [State.settle_cons hp,
        show ((ph, a) :: p).length + 3 * ks.sum = p.length + 3 * ks.sum + 1 by simp; omega,
        run_succ (step_afterMicro_of_nil (s := { s with phase := ph }) hh hf hp he hready),
        ih (s := State.afterMicro { s with phase := ph } ph a p) hh hf (by simp [State.afterMicro, hs])
          (by simp [State.afterMicro, microRest, ha]) hrest hks (by simpa [State.afterMicro, ha] using hb),
        State.afterProg_afterMicro (s := { s with phase := ph }) hs ha]
      exact congrArg Host.Outcome.next (State.settle_withPhase (s.afterProg ((ph, a) :: p) ks more) ph)

/-- An operation that is started runs its whole program, and what is left is completed. -/
theorem run_start {s : State} {o : Op} {p : Prog} {ks : List Nat} {more : List Level} (hh : s.host = [])
    (hf : s.fault = none) (hs : s.stallIn = none) (hp : p ≠ []) (hwf : Prog.wellFormed p = true)
    (hks : ks.length = busyWaits p) (hb : s.busyIn = busyScript ks ++ more) :
    Sys2Proof.core.run (p.length + 3 * ks.sum) (s.start o p) =
      .next ((s.start o p).afterProg p ks more).complete := by
  have hrun := run_settle_prog (s := s.start o p) hh hf hs rfl hwf hks hb
  rwa [State.settle_start s o hp] at hrun

end Sys2Proof.Machine
end

section
/-! The five requests on an idle block, and whole operations from the request to DONE (44_host_operations.md
R241 to R250). -/

namespace Sys2Proof.Machine

/-! ### Acceptance -/

theorem admission_accepted {s : State} (hf : s.fault = none) (ho : s.op = none) {n : Bool}
    (hn : n = true → s.phase ≠ .uninitialized) (q : BitVec 3) (t : State) : s.admission q n t = t := by
  rcases s.admission_cases q n t with ⟨h, -⟩ | ⟨-, -, hn', hph, -⟩ | ⟨-, -, -, h⟩
  · simp [hf, ho] at h
  · exact absurd hph (hn hn')
  · exact h

theorem execInit_accepted {s : State} (hf : s.fault = none) (ho : s.op = none) :
    exec .init s = .next (s.start .init (initProg (Memory.bytes s.fbBlack) (Memory.bytes s.fbRed))) :=
  congrArg Host.Outcome.next (admission_accepted hf ho (by simp) 1 _)

theorem execUpdate_accepted {s : State} (hf : s.fault = none) (ho : s.op = none)
    (hph : s.phase ≠ .uninitialized) :
    exec .update s =
      .next (s.start .update (updateProg (Memory.bytes s.fbBlack) (Memory.bytes s.fbRed))) :=
  congrArg Host.Outcome.next (admission_accepted hf ho (fun _ => hph) 2 _)

theorem execRefresh_accepted {s : State} (hf : s.fault = none) (ho : s.op = none)
    (hph : s.phase ≠ .uninitialized) : exec .refresh s = .next (s.start .refresh refreshProg) :=
  congrArg Host.Outcome.next (admission_accepted hf ho (fun _ => hph) 3 _)

theorem execBlank_accepted {s : State} (hf : s.fault = none) (ho : s.op = none)
    (hph : s.phase ≠ .uninitialized) :
    exec .blank s = .next (s.start .blank (blankProg Config.params.blankWakes)) :=
  congrArg Host.Outcome.next (admission_accepted hf ho (fun _ => hph) 4 _)

/-- Settles O10: INIT's program begins with CFG, tagged Resetting (42_sequencer.md R190). -/
theorem initAccepted : Obligations.InitAccepted := by
  intro s hf ho
  rw [execInit_accepted hf ho]
  rfl

/-- Settles O11: UPDATE's program begins with the reset pulse (42_sequencer.md R177, R189). -/
theorem updateAccepted : Obligations.UpdateAccepted := by
  intro s hf ho hph
  rw [execUpdate_accepted hf ho hph]
  rfl

theorem refreshProg_eq : refreshProg = [(.refreshing, .waitBusy), (.refreshing, .cmd .drf)] := rfl

/-- Settles O12: REFRESH's program is its refresh sequence alone (42_sequencer.md R185, R191). -/
theorem refreshAccepted : Obligations.RefreshAccepted := by
  intro s hf ho hph
  rw [execRefresh_accepted hf ho hph, refreshProg_eq]
  rfl

/-- Settles O13: BLANK's program begins with the reset pulse, or with the black transmission
(42_sequencer.md R192). -/
theorem blankAccepted : Obligations.BlankAccepted := by
  intro s hf ho hph
  rw [execBlank_accepted hf ho hph]
  cases Config.params.blankWakes <;> rfl

/-- Settles O14: an accepted BUSY is its accepting row, and a sample takes the environment's next level. -/
theorem busyAnswered : Obligations.BusyAnswered := by
  refine ⟨rfl, rfl, fun s hf ho => ?_, fun s l more hb => busyLevel_of_cons hb⟩
  exact congrArg Host.Outcome.next (admission_accepted hf ho (by simp) 5 _)

/-! ### Whole operations -/

theorem State.afterProg_events (s : State) (p : Prog) (ks : List Nat) (more : List Level) :
    (s.afterProg p ks more).events = s.events ++ progEvents p ks := by
  simp [State.afterProg, State.events]

/-- A request that is accepted, and then its whole program. -/
theorem run_request {s : State} {q : BitVec 3} {i : Instr} {o : Op} {p : Prog} {ks : List Nat}
    {more : List Level} (hh : s.host = [.act (.request q)]) (hq : decodeHost q = .ok i)
    (hi : exec i { s with host := [] } = .next ({ s with host := [] }.start o p)) (hf : s.fault = none)
    (hs : s.stallIn = none) (hp : p ≠ []) (hwf : Prog.wellFormed p = true)
    (hks : ks.length = busyWaits p) (hb : s.busyIn = busyScript ks ++ more) :
    Sys2Proof.core.run (p.length + 3 * ks.sum + 1) s =
      .next (({ s with host := [] }.start o p).afterProg p ks more).complete := by
  have hstep : step s = .next ({ s with host := [] }.start o p) := by
    rw [step_of_act hh]
    simp only [hostStep, requestStep, hq]
    exact hi
  rw [run_succ hstep]
  exact run_start rfl hf hs hp hwf hks hb

/-- Settles O34: REFRESH's program draws one busy wait and sends one unit. -/
theorem refreshFullCycle : Obligations.RefreshFullCycle := by
  intro s k more hh hf ho hp hph hs hb
  have hinit : s.phase ≠ .uninitialized := by simp [hph]
  have hrun := run_request (ks := [k]) hh rfl (execRefresh_accepted hf ho hinit) hf hs
    (by simp [refreshProg_eq]) rfl rfl hb
  have hsteps : refreshProg.length + 3 * [k].sum + 1 = 3 + 3 * k := by
    rw [refreshProg_eq, List.sum_singleton, List.length_cons, List.length_singleton]
    omega
  rw [hsteps] at hrun
  rw [hrun]
  simp [State.afterProg, State.complete, State.start, ho, hp, hph, hs, progEvents_refreshProg]
  simp [refreshProg_eq, Nat.add_comm]

/-- UPDATE ends with power-off, a command (42_sequencer.md R186). -/
theorem foldl_driveDc_refreshAndSleepEvents (k2 k3 : Nat) (d : Pin) :
    (refreshAndSleepEvents k2 k3).foldl driveDc d = .driven Config.dcCmd := by
  simp [refreshAndSleepEvents, sleepEvents, blockEvents]

/-- Events that drive the reset line nowhere. -/
theorem foldl_driveRst_of_forall {es : List Event} (h : ∀ e ∈ es, ∀ d, driveRst d e = d) (d : Pin) :
    es.foldl driveRst d = d := by
  induction es with
  | nil => rfl
  | cons e es ih =>
    rw [List.foldl_cons, h e List.mem_cons_self, ih fun e he => h e (List.mem_cons_of_mem _ he)]

@[simp] theorem foldl_driveRst_data (bs : List Byte) (d : Pin) :
    (bs.map Event.data).foldl driveRst d = d :=
  foldl_driveRst_of_forall (by simp) d

@[simp] theorem foldl_driveRst_blockEvents (c : Command) (bs : List Byte) (d : Pin) :
    (blockEvents c bs).foldl driveRst d = d :=
  foldl_driveRst_of_forall (by simp [blockEvents]) d

/-- The reset pulse ends high, and no later event of UPDATE drives the reset line (42_sequencer.md R177). -/
theorem foldl_driveRst_updateEvents (black red : List Byte) (k1 k2 k3 : Nat) (d : Pin) :
    (wakeEvents k1 ++ transmitEvents black red ++ refreshAndSleepEvents k2 k3).foldl driveRst d =
      .driven .high := by
  simp [wakeEvents, transmitEvents, refreshAndSleepEvents, sleepEvents]

/-- UPDATE's last micro-action clears the dirty flag (42_sequencer.md R189). -/
theorem foldl_dirtyAfter_updateProg (b r : List Byte) (d : Bool) :
    ((updateProg b r).map Prod.snd).foldl dirtyAfter d = false := by
  simp only [updateProg, List.flatten_cons, List.flatten_nil, List.append_nil, List.map_append,
    List.foldl_append]
  rfl

theorem updateProg_ne_nil (b r : List Byte) : updateProg b r ≠ [] := by
  simp [updateProg, wake, resetPulse, tag]

/-- What a whole operation leaves, component by component. -/
theorem run_request_components {s : State} {q : BitVec 3} {i : Instr} {o : Op} {p : Prog} {ks : List Nat}
    {more : List Level} (hh : s.host = [.act (.request q)]) (hq : decodeHost q = .ok i)
    (hi : exec i { s with host := [] } = .next ({ s with host := [] }.start o p)) (hf : s.fault = none)
    (hs : s.stallIn = none) (hp : p ≠ []) (hwf : Prog.wellFormed p = true)
    (hks : ks.length = busyWaits p) (hb : s.busyIn = busyScript ks ++ more) :
    ∃ t, Sys2Proof.core.run (p.length + 3 * ks.sum + 1) s = .next t ∧
      t.events = s.events ++ progEvents p ks ∧ t.dirty = (p.map Prod.snd).foldl dirtyAfter s.dirty ∧
      t.resp = s.resp ++ [.done o] ∧ t.op = none ∧ t.prog = [] ∧ t.phase = .ready ∧
      t.dc = (progEvents p ks).foldl driveDc s.dc ∧ t.rst = (progEvents p ks).foldl driveRst s.rst ∧
      t.fbBlack = s.fbBlack ∧ t.fbRed = s.fbRed ∧ t.fault = none ∧ t.refused = s.refused :=
  ⟨_, run_request hh hq hi hf hs hp hwf hks hb, State.afterProg_events _ p ks more, rfl, rfl, rfl, rfl,
    rfl, rfl, rfl, rfl, rfl, hf, rfl⟩

/-- Settles O31: UPDATE's program run from the request on. -/
theorem updateFullCycle : Obligations.UpdateFullCycle := by
  intro s k1 k2 k3 more hh hf ho hp hph hs hb
  have hinit : s.phase ≠ .uninitialized := by simp [hph]
  obtain ⟨t, hrun, hevents, hdirty, hresp, hop, hprog, hphase, hdc, hrst, hrest⟩ :=
    run_request_components (ks := [k1, k2, k3]) hh rfl (execUpdate_accepted hf ho hinit) hf hs
      (updateProg_ne_nil _ _) (wellFormed_updateProg _ _) (busyWaits_updateProg _ _).symm hb
  have hsteps : 15181 + 3 * [k1, k2, k3].sum + 1 = 15182 + 3 * (k1 + k2 + k3) := by
    simp
    omega
  rw [updateProg_length, hsteps] at hrun
  rw [foldl_dirtyAfter_updateProg] at hdirty
  rw [progEvents_updateProg] at hevents hdc hrst
  rw [List.foldl_append, foldl_driveDc_refreshAndSleepEvents] at hdc
  rw [foldl_driveRst_updateEvents] at hrst
  refine ⟨t, hrun, ?_, hdirty, hresp, hop, hprog, hphase, hdc, hrst, hrest⟩
  simpa using hevents

/-- Settles O32: INIT's program is CFG and then UPDATE's. -/
theorem initFullCycle : Obligations.InitFullCycle := by
  intro s k1 k2 k3 more hh hf ho hp hs hb
  obtain ⟨t, hrun, hevents, hdirty, hresp, hop, hprog, hphase, hdc, hrst, hrest⟩ :=
    run_request_components (ks := [k1, k2, k3]) hh rfl (execInit_accepted hf ho) hf hs
      (List.cons_ne_nil _ _) (wellFormed_initProg _ _) (busyWaits_initProg _ _).symm hb
  have hsteps : 15181 + 1 + 3 * [k1, k2, k3].sum + 1 = 15183 + 3 * (k1 + k2 + k3) := by
    simp
    omega
  rw [initProg_eq_cons, List.length_cons, updateProg_length, hsteps] at hrun
  rw [initProg_eq_cons, List.map_cons, List.foldl_cons, foldl_dirtyAfter_updateProg] at hdirty
  rw [progEvents_initProg, progEvents_updateProg] at hevents hdc hrst
  rw [List.foldl_cons, List.foldl_append, foldl_driveDc_refreshAndSleepEvents] at hdc
  rw [List.foldl_cons, foldl_driveRst_updateEvents] at hrst
  refine ⟨t, hrun, ?_, hdirty, hresp, hop, hprog, hphase, hdc, hrst, hrest⟩
  simpa using hevents

end Sys2Proof.Machine
end

section
/-! The host's ports, the status word, and block reset. -/

namespace Sys2Proof.Machine

/-! ### The ports -/

/-- A port of the host that answers a state, on the host's turn. -/
theorem step_of_port {s t : State} {a : HostAction} {turns : List HostTurn} (h : s.host = .act a :: turns)
    (ha : hostStep a { s with host := turns } = .next t) : step s = .next t :=
  (step_of_act h).trans ha

theorem State.fbw_idle {s : State} {p : Plane} {i : Nat} (v : Byte) (ho : s.op = none)
    (hi : i < Config.planeBytes) :
    s.fbw (.plane p) i v = s.setPlane p (Memory.write (s.plane p) i v) := by
  have hat : framebufferAt (.plane p) i = some p := framebufferAt_eq_some.mpr ⟨rfl, hi⟩
  simp [State.fbw, hat, ho]

/-- One plane replaced leaves everything but the planes. -/
theorem State.setPlane_frame (s : State) (p : Plane) (m : Memory) :
    s.setPlane p m = { s with fbBlack := (s.setPlane p m).fbBlack, fbRed := (s.setPlane p m).fbRed } := by
  cases p <;> rfl

/-- Settles O39: the write is `Memory.write` on the one plane, whose laws say the rest. -/
theorem framebufferWrite : Obligations.FramebufferWrite := by
  intro s p i v turns hh ho hi hwf
  have hplane (q : Plane) : State.plane { s with host := turns } q = s.plane q := by cases q <;> rfl
  have hstep := step_of_port hh (congrArg Host.Outcome.next (State.fbw_idle v ho hi))
  rw [hplane] at hstep
  refine ⟨_, hstep, ?_, fun j hj => ?_, fun q hq => ?_, ?_, ?_⟩
  · rw [State.setPlane_plane_same]
    exact Memory.read_write_same hwf i v
  · rw [State.setPlane_plane_same]
    exact Memory.read_write_other (s.plane p) v hj
  · rw [State.setPlane_plane_other _ _ hq, hplane]
  · rw [State.setPlane_plane_same]
    exact Memory.wf_write hwf v hi
  · exact State.setPlane_frame _ _ _

/-! ### The status word -/

/-- Four flags over a 4-bit code, from bit 7 down. -/
theorem flagsOverCode_bits (r f d i : Bool) (code : BitVec 4) :
    let w := BitVec.ofBool r ++ BitVec.ofBool f ++ BitVec.ofBool d ++ BitVec.ofBool i ++ code
    w.getLsbD 4 = i ∧ w.getLsbD 5 = d ∧ w.getLsbD 6 = f ∧ w.getLsbD 7 = r := by
  simp only [BitVec.getLsbD_append]
  simp

/-- The five fields of the status word (10_state.md R35). -/
theorem statusWord_fields (s : State) :
    s.statusWord.extractLsb' 0 4 = phaseCode s.phase ∧ s.statusWord.getLsbD 4 = s.idle ∧
    s.statusWord.getLsbD 5 = s.dirty ∧ s.statusWord.getLsbD 6 = s.fault.isSome ∧
    s.statusWord.getLsbD 7 = s.refused :=
  ⟨BitVec.extractLsb'_append_eq_right, flagsOverCode_bits _ _ _ _ _⟩

/-- Settles O44: the codes and the reset value by evaluation, the fields by the layout. -/
theorem statusWordLayout : Obligations.StatusWordLayout :=
  ⟨⟨rfl, rfl, rfl, rfl, rfl, rfl, rfl, rfl, rfl⟩, statusWord_fields, rfl,
    fun _ _ _ hh => step_of_port hh rfl⟩

/-- Settles O45: each read appends its value to what the host's reads returned. -/
theorem statusRead : Obligations.StatusRead :=
  fun _ _ => ⟨fun hh => step_of_port hh rfl, fun hh => step_of_port hh rfl⟩

/-! ### Block reset -/

/-- Settles O47: by the definition of block reset; its planes list no byte. -/
theorem blockReset : Obligations.BlockReset :=
  ⟨fun i => ⟨Memory.read_nil i, Memory.read_nil i⟩, rfl, rfl, rfl, rfl, rfl, rfl, rfl, rfl, rfl, rfl, rfl,
    rfl, fun _ _ => rfl⟩

theorem resetSeeded_controlInv (black red : Memory) : ControlInv (State.resetSeeded black red) where
  idle_iff := ⟨fun _ => rfl, fun _ => rfl⟩
  idle_phase _ := .inl rfl
  head_phase _ _ _ h := by simp [State.resetSeeded] at h
  prog_wf := rfl
  pending_wf _ h := by simp [State.resetSeeded] at h

theorem resetSeeded_pinsInv (black red : Memory) : PinsInv (State.resetSeeded black red) := ⟨rfl, rfl⟩

theorem resetSeeded_freshInv (black red : Memory) : FreshInv (State.resetSeeded black red) where
  idle _ := rfl
  samples _ _ h := by simp [State.resetSeeded] at h
  answers _ _ h := by simp [State.resetSeeded] at h

/-- Settles O48: only the planes' invariant depends on what the caller seeds. -/
theorem invariantsAtReset : Obligations.InvariantsAtReset := by
  intro black red hblack hred
  exact ⟨resetSeeded_controlInv _ _, ⟨hblack, hred⟩, resetSeeded_pinsInv _ _, resetSeeded_freshInv _ _, rfl,
    rfl, resetSeeded_controlInv _ _, ⟨rfl, rfl⟩, resetSeeded_pinsInv _ _, resetSeeded_freshInv _ _⟩

end Sys2Proof.Machine
end

section
/-! The host's framebuffer ports on an address that exists and on one that does not, FILL as a run of
writes, and the canonical form of the planes (20_memory.md R51, R55). -/

namespace Sys2Proof.Machine

@[simp] theorem State.plane_withHost (s : State) (turns : List HostTurn) (p : Plane) :
    { s with host := turns }.plane p = s.plane p := by
  cases p <;> rfl

/-! ### Reads and refusals -/

theorem State.fbr_plane (s : State) (p : Plane) {i : Nat} (hi : i < Config.planeBytes) :
    s.fbr (.plane p) i = s.returns (.byte (Memory.read (s.plane p) i)) := by
  have hat : framebufferAt (.plane p) i = some p := framebufferAt_eq_some.mpr ⟨rfl, hi⟩
  simp [State.fbr, hat]

/-- Settles O40: `State.fbr_plane` on the host's turn. -/
theorem framebufferRead : Obligations.FramebufferRead := by
  intro s p i turns hh hi
  have hi : i < Config.planeBytes := planeBytes_eq ▸ hi
  rw [step_of_port hh (congrArg Host.Outcome.next (State.fbr_plane _ p hi)), State.plane_withHost]
  rfl

theorem framebufferAt_eq_none {p : PlaneSel} {i : Nat} :
    framebufferAt p i = none ↔ (∃ n, p = .other n) ∨ Config.planeBytes ≤ i := by
  cases p <;> simp [framebufferAt]

theorem State.fbw_badIndex {p : PlaneSel} {i : Nat} (h : framebufferAt p i = none) (s : State) (v : Byte) :
    s.fbw p i v = s.refuse .badIndex := by
  simp [State.fbw, h]

theorem State.fbr_badIndex {p : PlaneSel} {i : Nat} (h : framebufferAt p i = none) (s : State) :
    s.fbr p i = s.refuse .badIndex := by
  simp [State.fbr, h]

/-- Settles O41: an address that does not exist is in no plane, and both ports look for the plane first. -/
theorem badIndexRefused : Obligations.BadIndexRefused := by
  intro s p i v turns hbad
  have hat : framebufferAt p i = none := framebufferAt_eq_none.mpr (planeBytes_eq ▸ hbad)
  exact ⟨fun hh => step_of_port hh (congrArg Host.Outcome.next (State.fbw_badIndex hat _ v)),
    fun hh => step_of_port hh (congrArg Host.Outcome.next (State.fbr_badIndex hat _))⟩

/-! ### FILL -/

/-- One byte written to each address of a list, in order: what a run of the host's writes makes of a
plane. -/
def Memory.writeEach (m : Memory) (v : Byte) : List Nat → Memory
  | [] => m
  | i :: is => (Memory.write m i v).writeEach v is

/-- The listed addresses hold the byte, and every other one reads as before. -/
theorem Memory.read_writeEach {m : Memory} (hm : Memory.wf m = true) (v : Byte) {is : List Nat}
    (his : ∀ i ∈ is, i < Config.planeBytes) (j : Nat) :
    Memory.read (m.writeEach v is) j = if j ∈ is then v else Memory.read m j := by
  induction is generalizing m with
  | nil => rfl
  | cons i is ih =>
    obtain ⟨hi, his⟩ := List.forall_mem_cons.mp his
    rw [Memory.writeEach, ih (Memory.wf_write hm v hi) his]
    by_cases hj : j = i
    · subst hj
      simp [Memory.read_write_same hm]
    · simp [Memory.read_write_other m v hj, hj]

theorem State.setPlane_setPlane (s : State) (p : Plane) (m m' : Memory) :
    (s.setPlane p m).setPlane p m' = s.setPlane p m' := by
  cases p <;> rfl

theorem State.setPlane_plane (s : State) (p : Plane) : s.setPlane p (s.plane p) = s := by
  cases p <;> rfl

theorem State.setPlane_withHost (s : State) (p : Plane) (m : Memory) (turns : List HostTurn) :
    { s.setPlane p m with host := turns } = { s with host := turns }.setPlane p m := by
  cases p <;> rfl

theorem step_fbw_idle {s : State} {p : Plane} {i : Nat} {v : Byte} {turns : List HostTurn}
    (hh : s.host = .act (.fbw (.plane p) i v) :: turns) (ho : s.op = none) (hi : i < Config.planeBytes) :
    step s = .next ({ s with host := turns }.setPlane p (Memory.write (s.plane p) i v)) := by
  rw [step_of_port hh (congrArg Host.Outcome.next (State.fbw_idle v ho hi)), State.plane_withHost]

/-- The host's writes of one byte to addresses that exist, on an idle block: a step each. -/
theorem run_writes {p : Plane} {v : Byte} {turns : List HostTurn} {is : List Nat} {s : State}
    (hh : s.host = is.map (fun i => .act (.fbw (.plane p) i v)) ++ turns) (ho : s.op = none)
    (his : ∀ i ∈ is, i < Config.planeBytes) :
    Sys2Proof.core.run is.length s =
      .next ({ s with host := turns }.setPlane p ((s.plane p).writeEach v is)) := by
  induction is generalizing s with
  | nil =>
    obtain rfl : s.host = turns := hh
    rw [Memory.writeEach, State.setPlane_plane]
    rfl
  | cons i is ih =>
    obtain ⟨hi, his⟩ := List.forall_mem_cons.mp his
    rw [List.length_cons, run_succ (step_fbw_idle hh ho hi)]
    refine (ih (State.setPlane_host _ p _) ((State.setPlane_op _ p _).trans (by exact ho)) his).trans ?_
    rw [State.setPlane_withHost, State.setPlane_setPlane, State.setPlane_plane_same, Memory.writeEach]

/-- Settles O46: FILL writes each address of its plane once. -/
theorem fillWritesPlane : Obligations.FillWritesPlane := by
  intro s p v turns hh ho hwf
  have hexist : ∀ i ∈ List.range Config.planeBytes, i < Config.planeBytes := fun _ => List.mem_range.mp
  have hrun := run_writes hh ho hexist
  rw [List.length_range, planeBytes_eq] at hrun
  refine ⟨_, hrun, fun i hi => ?_, fun q hq => ?_, State.setPlane_frame _ p _⟩
  · rw [State.setPlane_plane_same, Memory.read_writeEach hwf v (planeBytes_eq ▸ hexist),
      if_pos (List.mem_range.mpr hi)]
  · rw [State.setPlane_plane_other _ _ hq, State.plane_withHost]

/-! ### The canonical form -/

theorem planesInv_iff (s : State) : PlanesInv s ↔ ∀ p, Memory.wf (s.plane p) = true := by
  refine ⟨fun ⟨hblack, hred⟩ p => ?_, fun h => ⟨h .black, h .red⟩⟩
  cases p with
  | black => exact hblack
  | red => exact hred

theorem PlanesInv.of_planes {s t : State} (hs : PlanesInv s)
    (h : t.fbBlack = s.fbBlack ∧ t.fbRed = s.fbRed) : PlanesInv t := by
  obtain ⟨hblack, hred⟩ := h
  exact ⟨hblack ▸ hs.black_wf, hred ▸ hs.red_wf⟩

theorem PlanesInv.setPlane {s : State} (hs : PlanesInv s) (p : Plane) {m : Memory}
    (hm : Memory.wf m = true) : PlanesInv (s.setPlane p m) := by
  rw [planesInv_iff] at hs ⊢
  intro q
  by_cases hq : q = p
  · rwa [hq, State.setPlane_plane_same]
  · rw [State.setPlane_plane_other s m hq]
    exact hs q

theorem PlanesInv.port {s t : State} (hs : PlanesInv s) (h : PortEffect s t) : PlanesInv t := by
  cases h with
  | writePlane p i v _ hi => exact hs.setPlane p (Memory.wf_write ((planesInv_iff s).mp hs p) v hi)
  | _ => exact hs.of_planes ⟨rfl, rfl⟩

/-- Settles O51: a framebuffer write is the one effect that changes a plane, and it keeps the canonical
form. -/
theorem planesInvKept : Obligations.PlanesInvKept := by
  intro s t hs h
  exact step_keeps (fun _ _ hs => hs.of_planes ⟨rfl, rfl⟩) (fun _ hs => hs.of_planes ⟨rfl, rfl⟩)
    (fun _ _ hs h => hs.of_planes h.planes) (fun _ _ hs h => hs.port h)
    (fun _ _ _ _ hs _ _ _ => hs.of_planes ⟨State.settle_fbBlack _, State.settle_fbRed _⟩) hs h

end Sys2Proof.Machine
end

section
/-! The two payloads as bits in sending order: a byte's serial bits are its eight pixels, and the transcoder
sends each of them twice (20_memory.md R52, R66, 43_transcoder.md R220, R229). -/

namespace Sys2Proof.Machine

/-! ### Bytes and pixels -/

/-- The pixel at a row-major position is one bit of one byte, wherever the rows end (20_memory.md R52). -/
theorem pixel_of_position (m : Memory) (p : Nat) :
    pixel m (p % Config.width) (p / Config.width) = (Memory.read m (p / 8)).getLsbD (7 - p % 8) := by
  rw [pixel, pixelByte, pixelBit, Nat.div_add_mod']

/-- The positions below `n * k`, in `n` groups of `k`. -/
theorem range_mul_eq_flatMap (n k : Nat) :
    List.range (n * k) = (List.range n).flatMap fun i => (List.range k).map (i * k + ·) := by
  induction n with
  | zero => simp
  | succ n ih =>
    rw [Nat.succ_mul, List.range_add, ih, List.range_succ, List.flatMap_append, List.flatMap_singleton]

/-- The eight pixels of a byte are its bits in sending order: both begin with bit 7 (20_memory.md R66). -/
theorem bytePixels_eq_serialBits (m : Memory) (i : Nat) :
    (List.range 8).map (fun k => (Memory.read m ((i * 8 + k) / 8)).getLsbD (7 - (i * 8 + k) % 8)) =
      serialBits (Memory.read m i) := by
  have hbyte : ∀ k < 8, (Memory.read m ((i * 8 + k) / 8)).getLsbD (7 - (i * 8 + k) % 8) =
      (Memory.read m i).getLsbD (7 - k) := by
    intro k hk
    have hdiv : (i * 8 + k) / 8 = i := by omega
    have hmod : (i * 8 + k) % 8 = k := by omega
    rw [hdiv, hmod]
  rw [List.map_congr_left fun k hk => hbyte k (List.mem_range.mp hk)]
  rfl

/-- The pixels of a plane are its bytes' bits in sending order (20_memory.md R52, R54, R66). -/
theorem pixelsRowMajor_eq (m : Memory) : pixelsRowMajor m = (Memory.bytes m).flatMap serialBits := by
  have hsize : Config.width * Config.height = Config.planeBytes * 8 := rfl
  rw [pixelsRowMajor, hsize, range_mul_eq_flatMap, Memory.bytes, List.map_flatMap, List.flatMap_map]
  refine List.flatMap_congr fun i _ => ?_
  simp only [List.map_map, Function.comp_def, pixel_of_position]
  exact bytePixels_eq_serialBits m i

/-! ### The black payload -/

/-- The bits of a nibble, bit 3 first. -/
def nibbleBits (n : BitVec 4) : List Bool := [n.getLsbD 3, n.getLsbD 2, n.getLsbD 1, n.getLsbD 0]

theorem serialBits_eq_nibbles (b : Byte) :
    serialBits b = nibbleBits (b.extractLsb' 4 4) ++ nibbleBits (b.extractLsb' 0 4) := by
  simp [serialBits, nibbleBits]

/-- A spread nibble sends each of its bits twice (43_transcoder.md R220). -/
theorem serialBits_spread (n : BitVec 4) :
    serialBits (spread n) = (nibbleBits n).flatMap fun p => [p, p] := by
  revert n
  decide

theorem serialBits_expandBytes (b : Byte) :
    (expandBytes b).flatMap serialBits = (serialBits b).flatMap fun p => [p, p] := by
  rw [serialBits_eq_nibbles b, List.flatMap_append, ← serialBits_spread, ← serialBits_spread]
  simp [expandBytes, expand]

theorem serialBits_blackWire (fb : List Byte) :
    (blackWire fb).flatMap serialBits = (fb.flatMap serialBits).flatMap fun p => [p, p] := by
  rw [blackWire, List.flatMap_assoc, List.flatMap_assoc]
  exact List.flatMap_congr fun b _ => serialBits_expandBytes b

/-- Settles O38: the pixels are the plane's serial bits, and the black payload doubles each of those. -/
theorem pixelsOnTheWire : Obligations.PixelsOnTheWire := by
  intro m
  rw [pixelsRowMajor_eq]
  exact ⟨serialBits_blackWire _, by rw [redWire]⟩

end Sys2Proof.Machine
end

section
/-! The decoder read backwards: a request code and a wire unit are rebuilt from what they decode to, so no
bit of either format is ignored (30_encoding.md R80 to R84), and the opcode table's words are units of
`OpcodeMap.table`. -/

namespace Sys2Proof

/-! ### The request port -/

/-- The codes that are not listed decode to nothing, each by its own name (30_encoding.md R82). -/
theorem decodeHost_of_reserved {q : BitVec 3} (h : reservedCode q = true) :
    decodeHost q = .error (.reservedOp q) := by
  revert q
  decide

theorem reservedCode_iff (q : BitVec 3) : reservedCode q = true ↔ q = 0 ∨ q = 6 ∨ q = 7 := by
  simp [reservedCode, or_assoc]

/-- A request code is determined by the operation it decodes to. -/
theorem encode_of_decodeHost {q : BitVec 3} {i : Instr} (m : OpcodeMap) (h : decodeHost q = .ok i) :
    encode m i = .hostop3 q := by
  have code (n : BitVec 3) (hq : q.toNat = n.toNat) : Code.hostop3 n = .hostop3 q :=
    congrArg Code.hostop3 (BitVec.eq_of_toNat_eq hq).symm
  unfold decodeHost at h
  split at h
  case h_6 => simp at h
  all_goals
    obtain rfl := Except.ok.inj h
    exact code _ (by assumption)

/-- Settles O2: the encoder's codes by definition, the decoder's by evaluation, the reserved ones by
`decodeHost_of_reserved`. -/
theorem hostCodesDecode : Obligations.HostCodesDecode :=
  ⟨rfl, rfl, rfl, rfl, rfl, fun q hq => decodeHost_of_reserved ((reservedCode_iff q).mpr hq),
    fun _ => ⟨rfl, rfl, rfl, rfl, rfl⟩⟩

/-! ### The panel wire -/

/-- A D/C bit is at one of the two levels. -/
theorem Level.eq_flip_bit_of_ne {l : Level} {x : BitVec 1} (h : x ≠ l.bit) : x = l.flip.bit := by
  revert x
  cases l <;> decide

/-- A unit has no bit outside its two fields (30_encoding.md R83). -/
theorem wireUnit_of_fields {u : BitVec 9} {dc : Level} {b : Byte} (hdc : u.extractLsb' 8 1 = dc.bit)
    (hb : u.extractLsb' 0 8 = b) : wireUnit dc b = u := by
  have hfields : u.extractLsb' 8 1 ++ u.extractLsb' 0 8 = u.extractLsb' 0 9 :=
    BitVec.extractLsb'_append_extractLsb'_eq_extractLsb' rfl
  rw [wireUnit, ← hdc, ← hb, hfields, BitVec.extractLsb'_eq_self]

/-- A unit that decodes is the command's or the data unit of its byte, by the level of its D/C bit. -/
theorem encode_of_decodeWire {m : OpcodeMap} {u : BitVec 9} {i : Instr} (h : decodeWire m u = .ok i) :
    encode m i = .wire9 u := by
  unfold decodeWire at h
  split at h
  next hdc =>
    split at h
    next c hc =>
      obtain rfl := Except.ok.inj h
      rw [encode_ofCommand, commandUnit, wireUnit_of_fields hdc (opcode_of_decodeCommand hc).symm]
    next => simp at h
  next hdc =>
    obtain rfl := Except.ok.inj h
    exact congrArg Code.wire9 (wireUnit_of_fields (Level.eq_flip_bit_of_ne hdc) rfl)

/-- Settles O5: by the format of the unit; the opcode bytes need not be distinct. -/
theorem encodeDecodeAgree : Obligations.EncodeDecodeAgree := by
  intro m c i h
  cases c with
  | hostop3 q => exact encode_of_decodeHost m h
  | wire9 u => exact encode_of_decodeWire h

/-! ### The words of the opcode table -/

/-- A word of a row wider than a request code is read as a unit of the table's own map. -/
theorem decodeTableWord_of_decodeWire {nbits : Nat} (hn : 8 < nbits) {u : BitVec 9} {i : Instr}
    (h : decodeWire OpcodeMap.table u = .ok i) : decodeTableWord nbits u.toNat = some i := by
  have hu : u.toNat < 512 := u.isLt
  simp [decodeTableWord, Nat.not_le.mpr hn, hu, h, Except.toOption]

/-- Every command has its word in the table. -/
theorem decodeTableWord_commandUnit {nbits : Nat} (hn : 8 < nbits) (c : Command) :
    decodeTableWord nbits (commandUnit OpcodeMap.table c).toNat = some (.ofCommand c) :=
  decodeTableWord_of_decodeWire hn (decodeWire_commandUnit (by decide) c)

/-- So has a data unit of any byte. -/
theorem decodeTableWord_dataUnit {nbits : Nat} (hn : 8 < nbits) (b : Byte) :
    decodeTableWord nbits (dataUnit OpcodeMap.table b).toNat = some (.data b) :=
  decodeTableWord_of_decodeWire hn (decodeWire_dataUnit OpcodeMap.table b)

/-- Settles O3: the words of the wire are units of the table's map, and the request port's evaluate. -/
theorem tableWordsDecode : Obligations.TableWordsDecode := by
  have command := @decodeTableWord_commandUnit 16 (by decide)
  have data := @decodeTableWord_dataUnit 16 (by decide)
  exact ⟨rfl, rfl, command .psr, command .pon, command .drf, command .lutRed1, command .vdcs,
    data 0b00010010, rfl⟩

end Sys2Proof
end

section
/-! What a reserved request code and the twenty emitted commands do to the state (30_encoding.md R82,
40_command_protocol.md R110). -/

namespace Sys2Proof.Machine

theorem requestStep_of_reserved {q : BitVec 3} (h : reservedCode q = true) (s : State) :
    requestStep q s = .next (s.refuse .reservedOp) := by
  simp [requestStep, decodeHost_of_reserved h]

/-- Settles O17: the code is decoded before the block's state is looked at. -/
theorem reservedCodesRefused : Obligations.ReservedCodesRefused := by
  intro s q turns hq hh
  exact step_of_port hh (requestStep_of_reserved ((reservedCode_iff q).mpr hq) _)

/-- The state a command unit leaves, when the transport takes it. -/
theorem exec_ofCommand_ready {s : State} (h : s.transportReady = true) {c : Command} (hc : c ≠ .dslp) :
    exec (.ofCommand c) s = .next { s with
      dc := .driven Config.dcCmd
      trace := .cmd (Config.opcode c) :: s.trace
      stallIn := s.stallIn.map (· - 1) } := by
  rw [exec_ofCommand, if_neg hc, State.sendCommand, State.sendUnit_ready h]

/-- Settles O18: the listed rows are the opcode map's without deep-sleep, each with its opcode byte. -/
theorem commandUnitsSent : Obligations.CommandUnitsSent := by
  intro s hr x hx
  obtain ⟨c, hc, rfl⟩ :
      ∃ c ∈ Command.all.filter (· ≠ .dslp), (Instr.ofCommand c, Config.opcode c) = x :=
    List.mem_map.mp hx
  exact exec_ofCommand_ready hr (by simpa using (List.mem_filter.mp hc).2)

end Sys2Proof.Machine
end

section
/-! The wire stream of a program: which units it has does not depend on the busy levels, and a stream made of
commands with their data blocks reads back as those blocks (30_encoding.md R84, R90). -/

namespace Sys2Proof

/-! ### Reading blocks -/

/-- The units of a command and the data block it owns (30_encoding.md R84). -/
def blockUnits (m : OpcodeMap) (x : Command × List Byte) : List (BitVec 9) :=
  commandUnit m x.1 :: x.2.map (dataUnit m)

/-- Data units before the first command of a stream are owned by none of it. -/
theorem streamBlocks_dataUnits_append {m : OpcodeMap} {us : List (BitVec 9)}
    {blocks : List (Instr × List Byte)} {loose : List Byte}
    (h : streamBlocks m us = .ok (blocks, loose)) (bs : List Byte) :
    streamBlocks m (bs.map (dataUnit m) ++ us) = .ok (blocks, bs ++ loose) := by
  induction bs with
  | nil => exact h
  | cons b bs ih => simp [streamBlocks, ih, decodeWire_dataUnit]

/-- A command unit takes the data units that no later command owns. -/
theorem streamBlocks_commandUnit_cons {m : OpcodeMap} (hm : m.distinct = true) {us : List (BitVec 9)}
    {blocks : List (Instr × List Byte)} {loose : List Byte}
    (h : streamBlocks m us = .ok (blocks, loose)) (c : Command) :
    streamBlocks m (commandUnit m c :: us) = .ok ((.ofCommand c, loose) :: blocks, []) := by
  simp only [streamBlocks, h, decodeWire_commandUnit hm]
  cases c <;> rfl

/-- A stream of commands with their data blocks reads as those blocks. -/
theorem streamBlocks_flatMap_blockUnits {m : OpcodeMap} (hm : m.distinct = true)
    (xs : List (Command × List Byte)) :
    streamBlocks m (xs.flatMap (blockUnits m)) = .ok (xs.map fun x => (.ofCommand x.1, x.2), []) := by
  induction xs with
  | nil => rfl
  | cons x xs ih =>
    have hdata := streamBlocks_dataUnits_append ih x.2
    rw [List.append_nil] at hdata
    exact streamBlocks_commandUnit_cons hm hdata x.1

end Sys2Proof

namespace Sys2Proof.Machine

/-! ### The units of a program -/

/-- The unit a micro-action puts on the wire, if any (42_sequencer.md R170). -/
def actionUnit (m : OpcodeMap) : MicroAction → Option (BitVec 9)
  | .cmd c => some (commandUnit m c)
  | .dat b => some (dataUnit m b)
  | _ => none

/-- The units of a program, in order. -/
def progUnits (m : OpcodeMap) (p : Prog) : List (BitVec 9) := p.filterMap fun x => actionUnit m x.2

/-- A busy wait puts nothing on the wire, however long it is. -/
theorem filterMap_eventUnit_busyWaitEvents (m : OpcodeMap) (k : Nat) :
    (busyWaitEvents k).filterMap (eventUnit m) = [] := by
  induction k with
  | zero => rfl
  | succ k ih => exact ih

/-- The units in a program's events are the program's own, whatever the busy levels. -/
theorem filterMap_eventUnit_progEvents (p : Prog) (ks : List Nat) :
    (progEvents p ks).filterMap (eventUnit Config.params.opcodes) = progUnits Config.params.opcodes p := by
  induction p generalizing ks with
  | nil => rfl
  | cons x p ih =>
    obtain ⟨ph, a⟩ := x
    cases a with
    | waitBusy =>
      cases ks <;> simp [progEvents, filterMap_eventUnit_busyWaitEvents, ih, progUnits, actionUnit]
    | cmd c => exact congrArg (commandUnit _ c :: ·) (ih ks)
    | dat b => exact congrArg (dataUnit _ b :: ·) (ih ks)
    | _ => exact ih ks

theorem progUnits_append (m : OpcodeMap) (p q : Prog) :
    progUnits m (p ++ q) = progUnits m p ++ progUnits m q :=
  List.filterMap_append

theorem progUnits_tag (m : OpcodeMap) (ph : Phase) (xs : List MicroAction) :
    progUnits m (tag ph xs) = xs.filterMap (actionUnit m) :=
  List.filterMap_map

theorem filterMap_actionUnit_dat (m : OpcodeMap) (bs : List Byte) :
    (bs.map MicroAction.dat).filterMap (actionUnit m) = bs.map (dataUnit m) := by
  rw [List.filterMap_map]
  exact congrFun List.filterMap_eq_map bs

/-! ### UPDATE -/

/-- The command of a site and the block it owns (30_encoding.md R90). -/
def Site.commandBlock (x : Site) : Command × List Byte := (x.command, x.block Config.params)

theorem filterMap_actionUnit_emit (m : OpcodeMap) (x : Site) :
    x.emit.filterMap (actionUnit m) = blockUnits m x.commandBlock :=
  congrArg (commandUnit m x.command :: ·) (filterMap_actionUnit_dat m (x.block Config.params))

theorem progUnits_transmission (m : OpcodeMap) (ph : Phase) (c : Command) (bs : List Byte) :
    progUnits m (transmission ph c bs) = blockUnits m (c, bs) := by
  have hbody : (bs.map MicroAction.dat ++ [MicroAction.wait Config.tTx]).filterMap (actionUnit m) =
      bs.map (dataUnit m) := by
    rw [List.filterMap_append, filterMap_actionUnit_dat]
    exact List.append_nil _
  rw [transmission, progUnits_tag]
  exact congrArg (commandUnit m c :: ·) hbody

/-- The sites of the wake sequence, in order (30_encoding.md R90). -/
def wakeSites : List Site :=
  [.w1, .w2, .w3, .w4, .w5, .w6, .w7, .w8, .lut 0, .lut 1, .lut 2, .lut 3, .lut 4, .lut 5, .lut 6, .lut 7]

theorem progUnits_wake (m : OpcodeMap) :
    progUnits m wake = (wakeSites.map Site.commandBlock).flatMap (blockUnits m) := by
  have hpulse : progUnits m resetPulse = [] := rfl
  have hwait : [MicroAction.waitBusy].filterMap (actionUnit m) = [] := rfl
  simp only [wake, progUnits_append, hpulse, initCmds_eq_blocks, progUnits_tag, hwait, lutLoad,
    filterMap_actionUnit_emit, List.filterMap_append, List.flatMap_cons, List.flatMap_nil, wakeSites,
    List.map_cons, List.map_nil, List.append_nil, List.nil_append]

/-- The sites after the transmission: the refresh and the sleep sequence (30_encoding.md R90). -/
def refreshAndSleepSites : List Site := [.r1, .s1, .s2, .s3, .s4]

theorem progUnits_refreshAndSleep (m : OpcodeMap) :
    progUnits m (refreshSeq ++ postWait ++ sleep ++ tag .sleeping [.clearDirty]) =
      (refreshAndSleepSites.map Site.commandBlock).flatMap (blockUnits m) := rfl

/-- UPDATE's commands with their blocks (30_encoding.md R90, 42_sequencer.md R189). -/
def updateBlocks (b r : List Byte) : List (Command × List Byte) :=
  wakeSites.map Site.commandBlock ++ [(.dtm1, blackWire b), (.dtm2, r)] ++
    refreshAndSleepSites.map Site.commandBlock

theorem progUnits_updateProg (m : OpcodeMap) (b r : List Byte) :
    progUnits m (updateProg b r) = (updateBlocks b r).flatMap (blockUnits m) := by
  have hparts : updateProg b r = wake ++ (transmission .transmittingBlack .dtm1 (blackWire b) ++
      transmission .transmittingRed .dtm2 r) ++
      (refreshSeq ++ postWait ++ sleep ++ tag .sleeping [.clearDirty]) := by
    simp [updateProg, transmit_eq_transmissions, redWire]
  rw [hparts, progUnits_append, progUnits_append, progUnits_append, progUnits_wake,
    progUnits_transmission, progUnits_transmission, progUnits_refreshAndSleep, updateBlocks,
    List.flatMap_append, List.flatMap_append, List.flatMap_cons, List.flatMap_singleton]

/-- Settles O6: the events carry the program's units, those are the units of `updateBlocks`, and such a
stream reads as its blocks because the parameters' opcode bytes are distinct. -/
theorem updateStreamFraming : Obligations.UpdateStreamFraming := by
  intro b r ks
  rw [filterMap_eventUnit_progEvents, progUnits_updateProg,
    streamBlocks_flatMap_blockUnits Config.params.distinct]
  rfl

end Sys2Proof.Machine
end

section
/-! The command protocol: one unit on the wire, a command with its data block, the sequencer's step at a wire
unit, and the wait for a transport that never completes (40_command_protocol.md R110 to R117). -/

namespace Sys2Proof.Machine

/-! ### One unit -/

/-- A transport that takes every unit is ready, and its count does not move. -/
theorem State.sendUnit_of_stallIn_none {s : State} (h : s.stallIn = none) (dc : Level) (e : Event) :
    s.sendUnit dc e = { s with trace := e :: s.trace, dc := .driven dc } := by
  have hr : s.transportReady = true := by simp [State.transportReady, h]
  simp [State.sendUnit_ready hr, h]

/-- Settles O19: the unit is `sendData`, which the transport takes. -/
theorem dataUnitSent : Obligations.DataUnitSent := by
  intro s b hr
  rw [exec_data, State.sendData, State.sendUnit_ready hr]
  rfl

/-! ### A command with its data block -/

@[simp] theorem State.sendDataSequence_nil (s : State) : s.sendDataSequence [] = s := rfl

@[simp] theorem State.sendDataSequence_cons (s : State) (b : Byte) (bs : List Byte) :
    s.sendDataSequence (b :: bs) = (s.sendData b).sendDataSequence bs := rfl

/-- The state a data sequence leaves: its events, and D/C as they drive it (40_command_protocol.md R113). -/
theorem State.sendDataSequence_eq {s : State} (h : s.stallIn = none) (bs : List Byte) :
    s.sendDataSequence bs = { s with
      trace := (bs.map Event.data).reverse ++ s.trace
      dc := (bs.map Event.data).foldl driveDc s.dc } := by
  induction bs generalizing s with
  | nil => rfl
  | cons b bs ih =>
    rw [State.sendDataSequence_cons, State.sendData, State.sendUnit_of_stallIn_none h]
    simp [ih, h]

theorem State.sendDataSequence_events {s : State} (h : s.stallIn = none) (bs : List Byte) :
    (s.sendDataSequence bs).events = s.events ++ bs.map .data := by
  simp [State.sendDataSequence_eq h, State.events]

theorem foldl_driveDc_data {bs : List Byte} (h : bs ≠ []) (d : Pin) :
    (bs.map Event.data).foldl driveDc d = .driven Config.dcCmd.flip := by
  obtain ⟨front, b, rfl⟩ := List.eq_nil_or_concat' bs |>.resolve_left h
  simp

/-- A command and then its data block (40_command_protocol.md R117). -/
theorem State.sendCommandSequence_events {s : State} (h : s.stallIn = none) (c : Byte) (bs : List Byte) :
    (s.sendCommandSequence c bs).events = s.events ++ .cmd c :: bs.map .data := by
  rw [State.sendCommandSequence, State.sendCommand, State.sendUnit_of_stallIn_none h,
    State.sendDataSequence_events (by exact h)]
  simp [State.events]

/-- Settles O21: each unit appends its own event, and the last data unit leaves D/C at the data level. -/
theorem commandSequenceEmits : Obligations.CommandSequenceEmits := by
  intro s c bs hs
  refine ⟨State.sendCommandSequence_events hs c bs, State.sendDataSequence_events hs bs,
    s.sendDataSequence_nil, fun hbs => ?_⟩
  rw [State.sendDataSequence_eq hs]
  exact foldl_driveDc_data hbs s.dc

/-! ### The sequencer's step at a wire unit -/

theorem unitStep_ready {s : State} (h : s.transportReady = true) (i : Instr) (rest : Prog) :
    unitStep i rest s = settled (exec i (s.pop rest)) := by
  simp [unitStep, h]

/-- A wire micro-action runs the instruction its unit decodes to (30_encoding.md R84). -/
theorem microStep_of_decodeWire {a : MicroAction} {u : BitVec 9} {i : Instr}
    (hu : (∃ c, a = .cmd c ∧ u = commandUnit Config.params.opcodes c) ∨
      (∃ b, a = .dat b ∧ u = dataUnit Config.params.opcodes b))
    (hi : decodeWire Config.params.opcodes u = .ok i) (ph : Phase) (rest : Prog) (s : State) :
    microStep ph a rest s = unitStep i rest s := by
  obtain ⟨c, rfl, rfl⟩ | ⟨b, rfl, rfl⟩ := hu
  · rw [decodeWire_commandUnit Config.params.distinct] at hi
    obtain rfl := Except.ok.inj hi
    rfl
  · rw [decodeWire_dataUnit] at hi
    obtain rfl := Except.ok.inj hi
    rfl

/-- Settles O8: the head's unit decodes to the instruction the sequencer runs, on the state without it. -/
theorem stepRunsWireUnit : Obligations.StepRunsWireUnit := by
  intro s ph a rest u i turns hb hf hr hp hu hi
  have hready : { s with host := turns }.transportReady = true := hr
  rw [step_of_prog hb hf hp, microStep_of_decodeWire hu hi, unitStep_ready hready]
  rfl

/-! ### A stalled transport -/

/-- A state that steps to itself stays for ever (60_exceptions.md R276). -/
theorem run_of_step_self {s : State} (h : step s = .next s) (n : Nat) :
    Sys2Proof.core.run n s = .next s := by
  induction n with
  | zero => exact run_zero s
  | succ n ih => exact (run_succ h n).trans ih

/-- A block at a wire unit that the transport does not take only uses up the host's turn. -/
theorem step_stalled {s : State} {turns : List HostTurn} {ph : Phase} {a : MicroAction} {rest : Prog}
    (hb : s.blockTurn turns) (hf : s.fault = none) (hp : s.prog = (ph, a) :: rest)
    (ha : a.onWire = true) (hr : s.transportReady = false) : step s = .next { s with host := turns } := by
  rw [step_of_prog hb hf hp]
  exact microStep_stalled ha hr

/-- Settles O22: with no host turn left, the stalled step answers the state itself. -/
theorem stalledTransportHangs : Obligations.StalledTransportHangs := by
  intro s ph a rest n hs hh hf hp ha
  have hwire : a.onWire = true := by obtain ⟨c, rfl⟩ | ⟨b, rfl⟩ := ha <;> rfl
  have hr : s.transportReady = false := by simp [State.transportReady, hs]
  have hself : { s with host := [] } = s := by rw [← hh]
  have hstep := step_stalled (blockTurn_nil hh) hf hp hwire hr
  rw [hself] at hstep
  exact run_of_step_self hstep n

end Sys2Proof.Machine
end

section
/-! The panel commands: deep-sleep, the one command the sequencer never emits (41_panel_commands.md R135). -/

namespace Sys2Proof.Machine

/-- Settles O20: of the command units, deep-sleep is the one `exec_ofCommand` gives no step. -/
theorem deepSleepStops : Obligations.DeepSleepStops := by
  intro s
  have hunit : exec (.ofCommand .dslp) s = .refused .deepSleepNeverEmitted :=
    (exec_ofCommand .dslp s).trans (if_pos rfl)
  exact hunit

end Sys2Proof.Machine
end

section
/-! The sequencer's step, said for each kind of turn: the request that waited, a quiet micro-action, the
step that completes the operation, and a busy wait while BUSY is low (42_sequencer.md R170 to R176, R194). -/

namespace Sys2Proof.Machine

/-! ### The request that waited -/

theorem requestStep_of_decode {q : BitVec 3} {i : Instr} (h : decodeHost q = .ok i) (s : State) :
    requestStep q s = exec i s := by
  simp [requestStep, h]

theorem blockStep_of_pending {s : State} {q : BitVec 3} (hf : s.fault = none) (ho : s.op = none)
    (hp : s.prog = []) (hq : s.pending = some q) :
    blockStep s = requestStep q { s with pending := none } := by
  simp [blockStep, hf, ho, hp, hq]

/-- Settles O9: an idle block's turn takes the waiting request, whose code decodes. -/
theorem stepRunsHeldRequest : Obligations.StepRunsHeldRequest := by
  intro s q i turns hb hf ho hp hq hi
  have hcode : decodeHost q = .ok i := hi
  have hturn : blockStep { s with host := turns } =
      requestStep q { s with host := turns, pending := none } := blockStep_of_pending hf ho hp hq
  rw [step_of_blockTurn hb, hturn, requestStep_of_decode hcode]

/-! ### Quiet micro-actions -/

/-- Deep-sleep, the one micro-action that is never emitted, is a wire unit (42_sequencer.md R196). -/
theorem emitted_of_not_onWire {a : MicroAction} (h : a.onWire = false) : a.emitted = true := by
  cases a with
  | cmd c => simp at h
  | _ => rfl

/-- The step of a micro-action that neither sends nor samples, where more of the program follows. -/
theorem step_quiet {s : State} {turns : List HostTurn} {ph ph' : Phase} {a a' : MicroAction} {rest : Prog}
    (hb : s.blockTurn turns) (hf : s.fault = none) (ha : a.onWire = false) (hw : a ≠ .waitBusy)
    (hp : s.prog = (ph, a) :: (ph', a') :: rest) :
    step s = .next { s with
      host := turns, prog := (ph', a') :: rest, phase := ph'
      trace := microEvents .high a ++ s.trace
      rst := (microEvents .high a).foldl driveRst s.rst
      dirty := dirtyAfter s.dirty a } := by
  rw [step_afterMicro hb hf hp (emitted_of_not_onWire ha) (ready_of_not_onWire ha s),
    State.settle_cons (ph := ph') (a := a') (rest := rest) (by simp [State.afterMicro, microRest, hw])]
  cases a with
  | cmd c | dat b => simp at ha
  | waitBusy => exact absurd rfl hw
  | _ => simp [State.afterMicro, microRest]

/-- Settles O23: the clauses of `step_quiet`, one for each quiet micro-action. -/
theorem quietMicroActions : Obligations.QuietMicroActions := by
  intro s ph ph' a' rest l us turns hb hf
  exact ⟨step_quiet hb hf rfl (by simp), step_quiet hb hf rfl (by simp), step_quiet hb hf rfl (by simp),
    step_quiet hb hf rfl (by simp), step_quiet hb hf rfl (by simp)⟩

/-! ### Completion -/

/-- Only a low sample leaves more than the rest of the program. -/
theorem microRest_eq_nil {l : Level} {ph : Phase} {a : MicroAction} {rest : Prog}
    (h : microRest l ph a rest = []) : rest = [] ∧ (a = .waitBusy → l = .high) := by
  unfold microRest at h
  split at h
  · simp at h
  · rename_i hlow
    refine ⟨h, fun ha => ?_⟩
    cases l with
    | low => exact absurd ⟨ha, rfl⟩ hlow
    | high => rfl

/-- The event of a micro-action is its program's, when its sample is high. -/
theorem microEvents_eq_progEvents {l : Level} {a : MicroAction} (h : a = .waitBusy → l = .high)
    (ph : Phase) : microEvents l a = (progEvents [(ph, a)] []).reverse := by
  cases a with
  | waitBusy => rw [h rfl]; rfl
  | _ => rfl

/-- Settles O25: the step that leaves no program is the head's effect, on which `settle` completes. -/
theorem completionStep : Obligations.CompletionStep := by
  intro s t ph a o turns hb hf ho hp h ht
  rw [step_of_prog hb hf hp] at h
  rcases microStep_next h with ⟨-, -, rfl⟩ | ⟨-, -, rfl⟩
  · simp [hp] at ht
  · rw [State.settle_prog] at ht
    have hhigh := (microRest_eq_nil ht).2
    rw [State.settle_nil ht, ← microEvents_eq_progEvents hhigh ph]
    exact ⟨State.complete_resp_some (by exact ho), rfl, rfl, rfl⟩

/-! ### A busy wait that stays low -/

/-- Settles O27: by induction on the low samples, each `run_poll` back to the same wait. -/
theorem lowBusyNeverCompletes : Obligations.LowBusyNeverCompletes := by
  intro s ph rest k more hh hf hp hph hb
  induction k generalizing s with
  | zero =>
    have hb : s.busyIn = more := hb
    rw [← hb]
    rfl
  | succ k ih =>
    have hb : s.busyIn = .low :: (List.replicate k .low ++ more) := hb
    rw [show 3 * (k + 1) = 3 + 3 * k by omega, run_add (run_poll hh hf hp hb),
      ih (s.afterPoll ph _) hh hf hp rfl rfl]
    simp [State.afterPoll, List.replicate_succ', hph, Nat.add_assoc, Nat.add_comm 1 k]

end Sys2Proof.Machine
end

section
/-! BLANK's program beside the other three: its parts, length, busy waits and events, and so the documented
events of every operation (42_sequencer.md R177 to R192, 43_transcoder.md R226). -/

namespace Sys2Proof.Machine

/-! ### BLANK's program -/

/-- BLANK's program after its wake: transmission, refresh, busy wait and sleep (42_sequencer.md R192). -/
def transmitToSleep (bw rw : List Byte) : Prog :=
  transmit bw rw ++ (refreshSeq ++ (postWait ++ sleep))

/-- BLANK's streams are twice `N` and `N` bytes 0xFF (43_transcoder.md R226). -/
theorem blankProg_eq (wakes : Bool) :
    blankProg wakes =
      (if wakes then wake else []) ++
        transmitToSleep (List.replicate 10000 0xFF) (List.replicate 5000 0xFF) := by
  simp only [blankProg, transmitToSleep, blankStream, planeBytes_eq, List.flatten_cons, List.flatten_nil,
    List.append_nil]

theorem transmitToSleep_length (bw rw : List Byte) :
    (transmitToSleep bw rw).length = bw.length + rw.length + 25 := by
  have hparts : refreshSeq.length = 2 ∧ postWait.length = 1 ∧ sleep.length = 16 := ⟨rfl, rfl, rfl⟩
  simp [transmitToSleep, transmit_length, hparts]

theorem blankProg_length (wakes : Bool) :
    (blankProg wakes).length = if wakes then 15180 else 15025 := by
  rw [blankProg_eq, List.length_append, transmitToSleep_length, List.length_replicate,
    List.length_replicate]
  cases wakes with
  | true => simp [wake_length]
  | false => simp

theorem blankProg_ne_nil (wakes : Bool) : blankProg wakes ≠ [] := by
  rw [← List.length_pos_iff, blankProg_length]
  cases wakes <;> simp

theorem busyWaits_transmitToSleep (bw rw : List Byte) : busyWaits (transmitToSleep bw rw) = 2 := by
  have hparts : busyWaits (refreshSeq ++ (postWait ++ sleep)) = 2 := rfl
  rw [transmitToSleep, busyWaits_append, busyWaits_transmit, hparts]

theorem busyWaits_blankProg (wakes : Bool) : busyWaits (blankProg wakes) = if wakes then 3 else 2 := by
  rw [blankProg_eq, busyWaits_append, busyWaits_transmitToSleep]
  cases wakes with
  | true => exact congrArg (· + 2) busyWaits_wake
  | false => rfl

/-! ### Events -/

theorem progEvents_transmitToSleep (bw rw : List Byte) (k2 k3 : Nat) :
    progEvents (transmitToSleep bw rw) [k2, k3] =
      transmitEvents bw rw ++ refreshAndSleepEvents k2 k3 := by
  have hrefresh : progEvents refreshSeq [k2] = busyWaitEvents k2 ++ [.cmd 0x12] := rfl
  have hpost : progEvents postWait [k3] = busyWaitEvents k3 := List.append_nil _
  have hsleep : progEvents sleep [] = sleepEvents := rfl
  rw [transmitToSleep, progEvents_append (busyWaits_transmit _ _), progEvents_append_of_one rfl,
    progEvents_append_of_one rfl, progEvents_transmit, hrefresh, hpost, hsleep]
  simp only [refreshAndSleepEvents, List.append_assoc]

/-- A wake before a program, or none: the wake's busy wait draws `k` low levels. -/
theorem progEvents_wake_append (wakes : Bool) (q : Prog) (k : Nat) (ks : List Nat) :
    progEvents ((if wakes then wake else []) ++ q) (if wakes then k :: ks else ks) =
      (if wakes then wakeEvents k else []) ++ progEvents q ks := by
  cases wakes with
  | true => exact progEvents_wake k ▸ progEvents_append_of_one busyWaits_wake q k ks
  | false => rfl

/-- BLANK's events, with a wake or without one (42_sequencer.md R192). -/
theorem progEvents_blankProg (wakes : Bool) (k1 k2 k3 : Nat) :
    progEvents (blankProg wakes) (if wakes then [k1, k2, k3] else [k2, k3]) =
      (if wakes then wakeEvents k1 else []) ++
        transmitEvents (List.replicate 10000 0xFF) (List.replicate 5000 0xFF) ++
        refreshAndSleepEvents k2 k3 := by
  rw [blankProg_eq, progEvents_wake_append, progEvents_transmitToSleep, List.append_assoc]

/-- Settles O28: the events of each program, put together from those of its templates. -/
theorem programEventsInOrder : Obligations.ProgramEventsInOrder :=
  ⟨progEvents_wake, progEvents_updateProg, progEvents_initProg, progEvents_refreshProg,
    progEvents_blankProg true, progEvents_blankProg false 0⟩

end Sys2Proof.Machine
end

section
/-! How many events of each kind an operation has, and how long its waits are (42_sequencer.md R195,
70_reset_and_hazards.md R312): both add up over an append, so each template is counted once. -/

namespace Sys2Proof.Machine

/-! ### Adding up -/

theorem eventCounts_append (xs ys : List Event) :
    eventCounts (xs ++ ys) = List.zipWith (· + ·) (eventCounts xs) (eventCounts ys) := by
  simp [eventCounts]

theorem eventCounts_cons (e : Event) (es : List Event) :
    eventCounts (e :: es) = List.zipWith (· + ·) (eventCounts [e]) (eventCounts es) :=
  eventCounts_append [e] es

/-- Every event is of exactly one of the seven kinds. -/
theorem sum_eventCounts (es : List Event) : (eventCounts es).sum = es.length := by
  induction es with
  | nil => rfl
  | cons e es ih =>
    rw [List.length_cons, ← ih, eventCounts_cons]
    cases e <;> simp [eventCounts] <;> omega

theorem waitMicros_append (xs ys : List Event) :
    waitMicros (xs ++ ys) = waitMicros xs + waitMicros ys := by
  induction xs with
  | nil => simp [waitMicros]
  | cons e xs ih => cases e <;> simp [waitMicros, ih, Nat.add_assoc]

/-! ### Data and busy waits -/

theorem eventCounts_data (bs : List Byte) :
    eventCounts (bs.map .data) = [0, bs.length, 0, 0, 0, 0, 0] := by
  induction bs with
  | nil => rfl
  | cons b bs ih =>
    rw [List.map_cons, eventCounts_cons, ih]
    simp [eventCounts, Nat.add_comm]

theorem waitMicros_data (bs : List Byte) : waitMicros (bs.map .data) = 0 := by
  induction bs with
  | nil => rfl
  | cons b bs ih => exact ih

theorem eventCounts_blockEvents (c : Command) (bs : List Byte) :
    eventCounts (blockEvents c bs) = [1, bs.length, 0, 0, 0, 0, 0] := by
  rw [blockEvents, eventCounts_cons, eventCounts_data]
  simp [eventCounts]

theorem waitMicros_blockEvents (c : Command) (bs : List Byte) : waitMicros (blockEvents c bs) = 0 :=
  waitMicros_data bs

theorem eventCounts_busyWaitEvents (k : Nat) :
    eventCounts (busyWaitEvents k) = [0, 0, k, k, k + 1, 0, 0] := by
  induction k with
  | zero => rfl
  | succ k ih =>
    rw [busyWaitEvents, eventCounts_cons, eventCounts_cons (.wait _), eventCounts_cons .feed, ih]
    simp [eventCounts, Nat.add_comm]

theorem waitMicros_busyWaitEvents (k : Nat) :
    waitMicros (busyWaitEvents k) = k * Config.params.tPoll := by
  induction k with
  | zero => simp [busyWaitEvents, waitMicros]
  | succ k ih => simp [busyWaitEvents, waitMicros, ih, Nat.succ_mul, Nat.add_comm]

/-! ### The templates -/

theorem eventCounts_wakeEvents (k : Nat) :
    eventCounts (wakeEvents k) = [16, 134, 2 + k, k, 1 + k, 2, 0] := by
  have hpulse : eventCounts [.rst .low, .wait 200000, .rst .high, .wait 200000] =
    [0, 0, 2, 0, 0, 2, 0] := rfl
  simp only [wakeEvents, List.flatten_cons, List.flatten_nil, List.append_nil, eventCounts_append,
    eventCounts_blockEvents, eventCounts_busyWaitEvents, hpulse, List.length_ofFn, List.length_singleton,
    List.length_nil]
  simp [Nat.add_comm]

theorem waitMicros_wakeEvents (k : Nat) :
    waitMicros (wakeEvents k) = 400000 + k * Config.params.tPoll := by
  have hpulse : waitMicros [.rst .low, .wait 200000, .rst .high, .wait 200000] = 400000 := rfl
  simp only [wakeEvents, List.flatten_cons, List.flatten_nil, List.append_nil, waitMicros_append,
    waitMicros_blockEvents, waitMicros_busyWaitEvents, hpulse, Nat.add_zero, Nat.zero_add]

theorem eventCounts_transmitEvents (black red : List Byte) :
    eventCounts (transmitEvents black red) = [2, black.length + red.length, 4, 0, 0, 0, 0] := by
  have hopen (c : Byte) : eventCounts [.cmd c, .wait 2000] = [1, 0, 1, 0, 0, 0, 0] := rfl
  have hsettle : eventCounts [.wait 2000] = [0, 0, 1, 0, 0, 0, 0] := rfl
  simp only [transmitEvents, List.flatten_cons, List.flatten_nil, List.append_nil, eventCounts_append,
    eventCounts_data, hopen, hsettle]
  simp

theorem waitMicros_transmitEvents (black red : List Byte) :
    waitMicros (transmitEvents black red) = 8000 := by
  have hopen (c : Byte) : waitMicros [.cmd c, .wait 2000] = 2000 := rfl
  have hsettle : waitMicros [.wait 2000] = 2000 := rfl
  simp only [transmitEvents, List.flatten_cons, List.flatten_nil, List.append_nil, waitMicros_append,
    waitMicros_data, hopen, hsettle]

theorem eventCounts_refreshAndSleepEvents (k2 k3 : Nat) :
    eventCounts (refreshAndSleepEvents k2 k3) =
      [5, 6, 3 + (k2 + k3), 3 + (k2 + k3), 2 + (k2 + k3), 0, 0] := by
  have hrefresh : eventCounts [.cmd 0x12] = [1, 0, 0, 0, 0, 0, 0] := rfl
  have hsleep : eventCounts sleepEvents = [4, 6, 3, 3, 0, 0, 0] := rfl
  simp only [refreshAndSleepEvents, eventCounts_append, eventCounts_busyWaitEvents, hrefresh, hsleep]
  simp
  omega

theorem waitMicros_refreshAndSleepEvents (k2 k3 : Nat) :
    waitMicros (refreshAndSleepEvents k2 k3) = 1500000 + (k2 + k3) * Config.params.tPoll := by
  have hrefresh : waitMicros [.cmd 0x12] = 0 := rfl
  have hsleep : waitMicros sleepEvents = 1500000 := rfl
  simp only [refreshAndSleepEvents, waitMicros_append, waitMicros_busyWaitEvents, hrefresh, hsleep]
  ring

/-! ### The operations -/

/-- A list of events has these counts by kind, and its waits take this long. -/
structure Totals (es : List Event) (counts : List Nat) (micros : Nat) : Prop where
  counts_eq : eventCounts es = counts
  micros_eq : waitMicros es = micros

/-- What the statement says of one operation's events: the counts, their total, the least time. -/
theorem Totals.and_length {es : List Event} {counts : List Nat} {micros n : Nat}
    (h : Totals es counts micros) (hn : counts.sum = n) :
    eventCounts es = counts ∧ es.length = n ∧ waitMicros es = micros :=
  ⟨h.counts_eq, by rw [← hn, ← h.counts_eq, sum_eventCounts], h.micros_eq⟩

/-- An operation with a wake, whatever bytes it sends to the planes (42_sequencer.md R195). -/
theorem totals_wakingCycle {black red : List Byte} (hb : black.length = 10000) (hr : red.length = 5000)
    (k1 k2 k3 : Nat) :
    let k := k1 + k2 + k3
    Totals (wakeEvents k1 ++ transmitEvents black red ++ refreshAndSleepEvents k2 k3)
      [23, 15140, 9 + k, 3 + k, 3 + k, 2, 0] (1908000 + k * Config.params.tPoll) where
  counts_eq := by
    simp only [eventCounts_append, eventCounts_wakeEvents, eventCounts_transmitEvents,
      eventCounts_refreshAndSleepEvents, hb, hr]
    simp
    omega
  micros_eq := by
    simp only [waitMicros_append, waitMicros_wakeEvents, waitMicros_transmitEvents,
      waitMicros_refreshAndSleepEvents]
    ring

/-- BLANK without a wake (42_sequencer.md R192, R195). -/
theorem totals_wakelessCycle {black red : List Byte} (hb : black.length = 10000) (hr : red.length = 5000)
    (k2 k3 : Nat) :
    let k := k2 + k3
    Totals (transmitEvents black red ++ refreshAndSleepEvents k2 k3)
      [7, 15006, 7 + k, 3 + k, 2 + k, 0, 0] (1508000 + k * Config.params.tPoll) where
  counts_eq := by
    simp only [eventCounts_append, eventCounts_transmitEvents, eventCounts_refreshAndSleepEvents, hb, hr]
    simp
    omega
  micros_eq := by
    simp only [waitMicros_append, waitMicros_transmitEvents, waitMicros_refreshAndSleepEvents]
    ring

theorem totals_updateProg (mB mR : Memory) (k1 k2 k3 : Nat) :
    let k := k1 + k2 + k3
    Totals (progEvents (updateProg (Memory.bytes mB) (Memory.bytes mR)) [k1, k2, k3])
      [23, 15140, 9 + k, 3 + k, 3 + k, 2, 0] (1908000 + k * Config.params.tPoll) := by
  rw [progEvents_updateProg]
  exact totals_wakingCycle (by rw [blackWire_length, Memory.bytes_length, planeBytes_eq])
    (by rw [Memory.bytes_length, planeBytes_eq]) k1 k2 k3

/-- INIT is UPDATE with one more event, CFG (42_sequencer.md R190). -/
theorem totals_initProg (mB mR : Memory) (k1 k2 k3 : Nat) :
    let k := k1 + k2 + k3
    Totals (progEvents (initProg (Memory.bytes mB) (Memory.bytes mR)) [k1, k2, k3])
      [23, 15140, 9 + k, 3 + k, 3 + k, 2, 1] (1908000 + k * Config.params.tPoll) := by
  obtain ⟨hcounts, hmicros⟩ := totals_updateProg mB mR k1 k2 k3
  have hcfg : eventCounts [.cfg] = [0, 0, 0, 0, 0, 0, 1] := rfl
  rw [progEvents_initProg]
  refine ⟨?_, hmicros⟩
  rw [eventCounts_cons, hcounts, hcfg]
  simp

theorem totals_refreshProg (k : Nat) :
    Totals (progEvents refreshProg [k]) [1, 0, k, k, 1 + k, 0, 0] (k * Config.params.tPoll) := by
  have hcmd : eventCounts [.cmd 0x12] = [1, 0, 0, 0, 0, 0, 0] ∧ waitMicros [.cmd 0x12] = 0 := ⟨rfl, rfl⟩
  rw [progEvents_refreshProg]
  constructor
  · rw [eventCounts_append, eventCounts_busyWaitEvents, hcmd.1]
    simp [Nat.add_comm]
  · rw [waitMicros_append, waitMicros_busyWaitEvents, hcmd.2, Nat.add_zero]

theorem totals_blankProg_waking (k1 k2 k3 : Nat) :
    let k := k1 + k2 + k3
    Totals (progEvents (blankProg true) [k1, k2, k3])
      [23, 15140, 9 + k, 3 + k, 3 + k, 2, 0] (1908000 + k * Config.params.tPoll) :=
  progEvents_blankProg true k1 k2 k3 ▸
    totals_wakingCycle List.length_replicate List.length_replicate k1 k2 k3

theorem totals_blankProg_wakeless (k2 k3 : Nat) :
    let k := k2 + k3
    Totals (progEvents (blankProg false) [k2, k3])
      [7, 15006, 7 + k, 3 + k, 2 + k, 0, 0] (1508000 + k * Config.params.tPoll) :=
  progEvents_blankProg false 0 k2 k3 ▸
    totals_wakelessCycle List.length_replicate List.length_replicate k2 k3

/-- Settles O29: the totals of each operation; the number of events is the sum of the counts. -/
theorem eventCountsPerOperation : Obligations.EventCountsPerOperation := by
  refine ⟨fun mB mR ks hks => ?_, fun k => ?_, fun k1 k2 => ?_⟩
  · obtain ⟨k1, k2, k3, rfl⟩ := List.length_eq_three.mp hks
    have hk : [k1, k2, k3].sum = k1 + k2 + k3 := by simp [Nat.add_assoc]
    rw [hk]
    obtain ⟨hic, hil, hit⟩ := (totals_initProg mB mR k1 k2 k3).and_length
      (n := 15181 + 3 * (k1 + k2 + k3)) (by simp; omega)
    obtain ⟨huc, hul, hut⟩ := (totals_updateProg mB mR k1 k2 k3).and_length
      (n := 15180 + 3 * (k1 + k2 + k3)) (by simp; omega)
    exact ⟨hic, hil, hit, huc, hul, hut,
      (totals_blankProg_waking k1 k2 k3).and_length (by simp; omega)⟩
  · exact (totals_refreshProg k).and_length (by simp; omega)
  · exact (totals_blankProg_wakeless k1 k2).and_length (by simp; omega)

end Sys2Proof.Machine
end

section
/-! Every program in flight runs to its completion, from whatever phase it stands in, and so does a whole
BLANK (42_sequencer.md R172, R192, R194). -/

namespace Sys2Proof.Machine

/-! ### The phase is only the program's head -/

theorem ready_of_stallIn_none {s : State} (h : s.stallIn = none) (a : MicroAction) :
    a.onWire = true → s.transportReady = true :=
  fun _ => by simp [State.transportReady, h]

/-- The phase a step finds does not show in the state it leaves. -/
theorem step_withPhase {s : State} {ph : Phase} {a : MicroAction} {rest : Prog} (hh : s.host = [])
    (hf : s.fault = none) (hs : s.stallIn = none) (hp : s.prog = (ph, a) :: rest)
    (he : a.emitted = true) (ph' : Phase) : step { s with phase := ph' } = step s := by
  have hready := ready_of_stallIn_none hs a
  rw [step_afterMicro_of_nil (s := { s with phase := ph' }) hh hf hp he hready,
    step_afterMicro_of_nil hh hf hp he hready]
  exact congrArg Host.Outcome.next (State.settle_withPhase (s.afterMicro ph a rest) ph')

/-- So a program in flight runs as it does from its settled state. -/
theorem run_settle {s : State} (hh : s.host = []) (hf : s.fault = none) (hs : s.stallIn = none)
    (hp : s.prog ≠ []) (hwf : Prog.wellFormed s.prog = true) (n : Nat) :
    Sys2Proof.core.run (s.prog.length + n) s.settle = Sys2Proof.core.run (s.prog.length + n) s := by
  obtain ⟨⟨ph, a⟩, rest, hcons⟩ := List.exists_cons_of_ne_nil hp
  rw [hcons] at hwf
  obtain ⟨-, he, -⟩ := wellFormed_cons.mp hwf
  have hready := ready_of_stallIn_none hs a
  have hstep := step_afterMicro_of_nil hh hf hcons he hready
  have hstep' : step s.settle = .next (s.afterMicro ph a rest).settle := by
    rw [State.settle_cons hcons, step_withPhase hh hf hs hcons he, hstep]
  rw [hcons, List.length_cons, show rest.length + 1 + n = rest.length + n + 1 by omega, run_succ hstep',
    run_succ hstep]

/-! ### The dirty flag -/

/-- A program holds a CLEAR_DIRTY (42_sequencer.md R170). -/
def clearsDirty (p : Prog) : Bool := p.any fun x => x.2 == .clearDirty

theorem dirtyAfter_eq (d : Bool) (a : MicroAction) : dirtyAfter d a = (d && !(a == .clearDirty)) := by
  cases a <;> simp

/-- Only CLEAR_DIRTY changes the flag along a program. -/
theorem foldl_dirtyAfter (p : Prog) (d : Bool) :
    (p.map Prod.snd).foldl dirtyAfter d = (d && !clearsDirty p) := by
  induction p generalizing d with
  | nil => simp [clearsDirty]
  | cons x p ih =>
    rw [List.map_cons, List.foldl_cons, ih, dirtyAfter_eq]
    simp [clearsDirty, Bool.and_assoc]

theorem clearsDirty_append (p q : Prog) : clearsDirty (p ++ q) = (clearsDirty p || clearsDirty q) :=
  List.any_append

theorem clearsDirty_tag (ph : Phase) {xs : List MicroAction} (h : .clearDirty ∉ xs) :
    clearsDirty (tag ph xs) = false := by
  simp only [clearsDirty, tag, List.any_map, List.any_eq_false, Function.comp, beq_iff_eq]
  rintro _ hx rfl
  exact h hx

theorem clearsDirty_wake : clearsDirty wake = false := by
  have hpulse : clearsDirty resetPulse = false := rfl
  have hcmds : clearsDirty initCmds = false :=
    clearsDirty_tag _ (by simp [lutLoad, Site.emit, cmdSeq])
  rw [wake, clearsDirty_append, hpulse, hcmds, Bool.or_self]

theorem clearsDirty_transmitToSleep (bw rw : List Byte) : clearsDirty (transmitToSleep bw rw) = false := by
  have htail : clearsDirty (refreshSeq ++ (postWait ++ sleep)) = false := rfl
  rw [transmitToSleep, transmit, clearsDirty_append, clearsDirty_append, htail, clearsDirty_tag _ (by simp),
    clearsDirty_tag _ (by simp), Bool.or_self, Bool.or_self]

/-- BLANK leaves the dirty flag alone (44_host_operations.md R246). -/
theorem clearsDirty_blankProg (wakes : Bool) : clearsDirty (blankProg wakes) = false := by
  rw [blankProg_eq, clearsDirty_append, clearsDirty_transmitToSleep]
  cases wakes with
  | true => exact (Bool.or_false _).trans clearsDirty_wake
  | false => rfl

/-! ### The statements -/

/-- Settles O30: the run from the settled state ends in `afterProg`, which completes. -/
theorem programRunsToCompletion : Obligations.ProgramRunsToCompletion := by
  intro s o ks more hh hf hs ho hp hwf hks hb
  have hrun := (run_settle hh hf hs hp hwf _).symm.trans (run_settle_prog hh hf hs rfl hwf hks hb)
  rw [State.settle_nil (s := s.afterProg s.prog ks more) rfl] at hrun
  exact ⟨_, hrun, State.afterProg_events s s.prog ks more, rfl, rfl, rfl,
    State.complete_resp_some (by exact ho), foldl_dirtyAfter s.prog s.dirty, rfl, rfl, hf, rfl, rfl, rfl, hs, hh⟩

/-- Settles O33: BLANK's program run from the request on, with the wake's busy wait or without it. -/
theorem blankFullCycle : Obligations.BlankFullCycle := by
  intro s k1 k2 k3 more hh hf ho hp hph hs hb
  have hinit : s.phase ≠ .uninitialized := by simp [hph]
  have hexec := execBlank_accepted (s := { s with host := [] }) hf ho hinit
  generalize Config.params.blankWakes = wakes at hb hexec ⊢
  have hks : (if wakes then [k1, k2, k3] else [k2, k3]).length = busyWaits (blankProg wakes) := by
    rw [busyWaits_blankProg]
    cases wakes <;> rfl
  have hsteps : (blankProg wakes).length + 3 * (if wakes then [k1, k2, k3] else [k2, k3]).sum + 1 =
      if wakes then 15181 + 3 * (k1 + k2 + k3) else 15026 + 3 * (k2 + k3) := by
    rw [blankProg_length]
    cases wakes <;> simp <;> omega
  obtain ⟨t, hrun, hevents, hdirty, hresp, hop, hprog, hphase, -, -, hrest⟩ :=
    run_request_components hh rfl hexec hf hs (blankProg_ne_nil wakes) (wellFormed_blankProg wakes) hks hb
  rw [hsteps] at hrun
  rw [progEvents_blankProg, ← List.append_assoc, ← List.append_assoc] at hevents
  rw [foldl_dirtyAfter, clearsDirty_blankProg, Bool.not_false, Bool.and_true] at hdirty
  exact ⟨t, hrun, hevents, hdirty, hresp, hop, hprog, hphase, hrest⟩

end Sys2Proof.Machine
end

section
/-! From a coherent state every turn has a next state (60_exceptions.md R271 to R276). -/

namespace Sys2Proof.Machine

/-- A micro-action that a program may hold has its effect, or waits for the transport. -/
theorem microStep_answers {a : MicroAction} (he : a.emitted = true) (ph : Phase) (rest : Prog) (s : State) :
    ∃ t, microStep ph a rest s = .next t := by
  by_cases hr : a.onWire = true → s.transportReady = true
  · exact ⟨_, microStep_of_ready he hr⟩
  · obtain ⟨ha, hr⟩ := Classical.not_imp.mp hr
    exact ⟨s, microStep_stalled ha (Bool.eq_false_of_not_eq_true hr)⟩

/-- The block's turn, where no step of the program is deep-sleep. -/
theorem blockStep_answers {s : State} (hwf : Prog.wellFormed s.prog = true) :
    ∃ t, blockStep s = .next t := by
  unfold blockStep
  split
  · exact ⟨s, rfl⟩
  · split
    · rename_i ph a rest hp
      rw [hp, wellFormed_cons] at hwf
      obtain ⟨-, he, -⟩ := hwf
      exact microStep_answers he ph rest s
    · split
      · exact ⟨s, rfl⟩
      · split
        · exact requestStep_next _ _
        · exact ⟨s, rfl⟩

theorem hostStep_answers (a : HostAction) (s : State) : ∃ t, hostStep a s = .next t := by
  cases a with
  | request q => exact requestStep_next q s
  | _ => exact ⟨_, rfl⟩

/-- Settles O50: the host's actions always answer, and the block's turn does because no program holds
deep-sleep. -/
theorem coherentStateSteps : Obligations.CoherentStateSteps := by
  intro s hs
  rcases blockTurn_or_act s with ⟨turns, hb⟩ | ⟨a, turns, ha⟩
  · rw [step_of_blockTurn hb]
    exact blockStep_answers hs.prog_wf
  · rw [step_of_act ha]
    exact hostStep_answers a _

end Sys2Proof.Machine
end

section
/-! What a step does to the sequencer and the trace, with the program that an accepted request starts named:
the step lemmas about programs in flight are case analyses on it. -/

namespace Sys2Proof.Machine

/-- The programs a request can start in a phase (44_host_operations.md R241 rows 6 to 9). -/
inductive StartedProg (ph : Phase) : Prog → Prop
  | init (b r : List Byte) : StartedProg ph (initProg b r)
  | update (b r : List Byte) (h : ph ≠ .uninitialized) : StartedProg ph (updateProg b r)
  | refresh (h : ph ≠ .uninitialized) : StartedProg ph refreshProg
  | blank (wakes : Bool) (h : ph ≠ .uninitialized) : StartedProg ph (blankProg wakes)

/-- What a step can do to the sequencer. The state `u` has the turn, and the request that waited, taken. -/
inductive SequencerEffect (s : State) : State → Prop
  | same {t : State} (h : SameSequencer s t) : SequencerEffect s t
  /-- The head of the program has its effect. -/
  | micro {u : State} {ph : Phase} {a : MicroAction} {rest : Prog} (hu : SameSequencer s u)
      (hp : s.prog = (ph, a) :: rest) : SequencerEffect s (u.afterMicro ph a rest).settle
  /-- A program is started. -/
  | start {u : State} (hu : SameSequencer s u) (ho : s.op = none) (o : Op) {p : Prog} (hne : p ≠ [])
      (hp : StartedProg s.phase p) : SequencerEffect s (u.start o p)
  /-- BUSY is sampled. -/
  | answer {t : State} (ho : s.op = none) (hprog : t.prog = s.prog) (hphase : t.phase = s.phase) (l : Level)
      (htrace : t.trace = .sample l :: s.trace) : SequencerEffect s t

theorem SameSequencer.trans {s t u : State} (h : SameSequencer s t) (h' : SameSequencer t u) :
    SameSequencer s u where
  op_eq := h'.op_eq.trans h.op_eq
  prog_eq := h'.prog_eq.trans h.prog_eq
  phase_eq := h'.phase_eq.trans h.phase_eq
  rst_eq := h'.rst_eq.trans h.rst_eq
  dc_eq := h'.dc_eq.trans h.dc_eq
  trace_eq := h'.trace_eq.trans h.trace_eq
  resp_eq := h'.resp_eq.trans h.resp_eq

theorem requestStep_sequencerEffect {s u t : State} {q : BitVec 3} (hu : SameSequencer s u)
    (h : requestStep q u = .next t) : SequencerEffect s t := by
  rcases requestStep_effect h with ⟨r, rfl⟩ | ⟨-, -, rfl⟩ | ⟨-, ho, o, p, rfl, hne, hp⟩ |
    ⟨-, ho, rfl⟩
  · exact .same (hu.trans (.refuse u r))
  · exact .same (hu.trans (.withPending u (some q)))
  · rw [hu.op_eq] at ho
    rw [hu.phase_eq] at hp
    refine .start hu ho o hne ?_
    rcases hp with rfl | ⟨hph, rfl | rfl | rfl⟩
    · exact .init _ _
    · exact .update _ _ hph
    · exact .refresh hph
    · exact .blank _ hph
  · exact .answer (hu.op_eq ▸ ho) hu.prog_eq hu.phase_eq u.busyLevel
      (congrArg (Event.sample u.busyLevel :: ·) hu.trace_eq)

theorem blockStep_sequencerEffect {s u t : State} (hu : SameSequencer s u) (h : blockStep u = .next t) :
    SequencerEffect s t := by
  rcases blockStep_cases h with ⟨-, rfl⟩ | ⟨-, ph, a, rest, hp, hm⟩ | ⟨-, -, -, rfl⟩ |
    ⟨-, -, -, q, -, hq⟩
  · exact .same hu
  · rcases microStep_next hm with ⟨-, -, rfl⟩ | ⟨-, -, rfl⟩
    · exact .same hu
    · exact .micro hu (hu.prog_eq ▸ hp)
  · exact .same hu
  · exact requestStep_sequencerEffect (hu.trans (.withPending u none)) hq

theorem step_sequencerEffect {s t : State} (h : step s = .next t) : SequencerEffect s t := by
  rcases blockTurn_or_act s with ⟨turns, hb⟩ | ⟨a, turns, ha⟩
  · rw [step_of_blockTurn hb] at h
    exact blockStep_sequencerEffect (.withHost s turns) h
  · rw [step_of_act ha] at h
    by_cases hq : ∃ q, a = .request q
    · obtain ⟨q, rfl⟩ := hq
      exact requestStep_sequencerEffect (.withHost s turns) h
    · have hport := hostStep_portEffect (fun q e => hq ⟨q, e⟩) h
      exact .same ((SameSequencer.withHost s turns).trans hport.sameSequencer)

end Sys2Proof.Machine
end

section
/-! The phase graph: the tags of every program that a request starts follow its arrows, and so does every
step (42_sequencer.md R193). -/

namespace Sys2Proof.Machine

/-! ### Tags along a program -/

/-- From phase `ph`, going on with the program `p` follows the phase graph; with no program left, so does
the completion. -/
def goesOn (ph : Phase) : Prog → Bool
  | [] => phaseArrow ph .ready
  | (ph', a) :: rest => (ph == ph' || phaseArrow ph ph') && tagsFollowGraph ((ph', a) :: rest)

theorem tagsFollowGraph_cons (ph : Phase) (a : MicroAction) (rest : Prog) :
    tagsFollowGraph ((ph, a) :: rest) = goesOn ph rest := by
  cases rest <;> rfl

theorem goesOn_cons (ph ph' : Phase) (a : MicroAction) (rest : Prog) :
    goesOn ph ((ph', a) :: rest) = ((ph == ph' || phaseArrow ph ph') && goesOn ph' rest) := by
  rw [goesOn, tagsFollowGraph_cons]

/-- A template of one phase is entered by an arrow, or from the same phase, and left from its phase. -/
theorem goesOn_tag_append (ph ph' : Phase) {xs : List MicroAction} (h : xs ≠ []) (rest : Prog) :
    goesOn ph (tag ph' xs ++ rest) = ((ph == ph' || phaseArrow ph ph') && goesOn ph' rest) := by
  induction xs generalizing ph with
  | nil => exact absurd rfl h
  | cons a xs ih =>
    change goesOn ph ((ph', a) :: (tag ph' xs ++ rest)) = _
    rw [goesOn_cons]
    cases xs with
    | nil => rfl
    | cons b xs => rw [ih ph' (by simp)]; simp

/-- A state whose program goes on from `ph` settles into `ph` or along an arrow, and its program follows
the graph. -/
theorem settle_of_goesOn {s : State} {ph : Phase} (h : goesOn ph s.prog = true) :
    tagsFollowGraph s.settle.prog = true ∧
      (s.settle.phase = ph ∨ phaseArrow ph s.settle.phase = true) := by
  rw [State.settle_prog]
  cases hp : s.prog with
  | nil =>
    rw [hp] at h
    rw [State.settle_nil hp]
    exact ⟨rfl, .inr h⟩
  | cons x rest =>
    obtain ⟨ph', a⟩ := x
    rw [hp, goesOn, Bool.and_eq_true, Bool.or_eq_true, beq_iff_eq] at h
    obtain ⟨hph, hrest⟩ := h
    rw [State.settle_cons hp]
    exact ⟨hrest, hph.imp_left Eq.symm⟩

/-- A busy wait goes on in its own phase. -/
theorem goesOn_microRest {ph : Phase} {rest : Prog} (h : goesOn ph rest = true) (l : Level)
    (a : MicroAction) : goesOn ph (microRest l ph a rest) = true := by
  unfold microRest
  split
  · simp [goesOn_cons, h]
  · exact h

/-! ### The programs -/

theorem goesOn_wake_append (ph : Phase) (rest : Prog) :
    goesOn ph (wake ++ rest) =
      ((ph == .resetting || phaseArrow ph .resetting) && goesOn .initializing rest) := by
  rw [wake, List.append_assoc, resetPulse, initCmds, goesOn_tag_append _ _ (by simp),
    goesOn_tag_append _ _ (by simp [Site.emit, cmdSeq])]
  rfl

theorem goesOn_transmit_append (ph : Phase) (bw rw : List Byte) (rest : Prog) :
    goesOn ph (transmit bw rw ++ rest) =
      ((ph == .transmittingBlack || phaseArrow ph .transmittingBlack) && goesOn .transmittingRed rest) := by
  rw [transmit, List.append_assoc, goesOn_tag_append _ _ (by simp), goesOn_tag_append _ _ (by simp)]
  rfl

theorem goesOn_updateProg {ph : Phase} (h : (ph == .resetting || phaseArrow ph .resetting) = true)
    (b r : List Byte) : goesOn ph (updateProg b r) = true := by
  have htail : goesOn .transmittingRed
      (refreshSeq ++ (postWait ++ (sleep ++ tag .sleeping [.clearDirty]))) = true := rfl
  simp only [updateProg, List.flatten_cons, List.flatten_nil, List.append_nil]
  rw [goesOn_wake_append, goesOn_transmit_append, htail, h]
  rfl

theorem goesOn_blankProg (wakes : Bool) : goesOn .ready (blankProg wakes) = true := by
  have htail : goesOn .transmittingRed (refreshSeq ++ (postWait ++ sleep)) = true := rfl
  rw [blankProg_eq, transmitToSleep]
  cases wakes with
  | true =>
    rw [if_pos rfl, goesOn_wake_append, goesOn_transmit_append, htail]
    rfl
  | false =>
    rw [if_neg (by simp), List.nil_append, goesOn_transmit_append, htail]
    rfl

/-- A request starts its program along an arrow of the phase graph (42_sequencer.md R193). -/
theorem goesOn_of_startedProg {ph : Phase} {p : Prog} (h : StartedProg ph p)
    (hph : ph = .uninitialized ∨ ph = .ready) : goesOn ph p = true := by
  have hready (hne : ph ≠ .uninitialized) : ph = .ready := hph.resolve_left hne
  cases h with
  | init b r =>
    have hreset : phaseArrow ph .resetting = true := by rcases hph with rfl | rfl <;> rfl
    rw [initProg_eq_cons, goesOn_cons, goesOn_updateProg rfl, hreset, Bool.or_true, Bool.and_true]
  | update b r hne =>
    rw [hready hne]
    exact goesOn_updateProg rfl b r
  | refresh hne =>
    rw [hready hne]
    rfl
  | blank wakes hne =>
    rw [hready hne]
    exact goesOn_blankProg wakes

/-- Settles O54: the program goes on from the phase of its head, or from the idle phase it is started in. -/
theorem phaseGraphFollowed : Obligations.PhaseGraphFollowed := by
  intro s t hs hg h
  cases step_sequencerEffect h with
  | same hsame => exact ⟨hsame.prog_eq ▸ hg, .inl hsame.phase_eq⟩
  | @micro u ph a rest hu hp =>
    rw [hp, tagsFollowGraph_cons] at hg
    rw [hs.head_phase ph a rest hp]
    exact settle_of_goesOn (s := u.afterMicro ph a rest) (goesOn_microRest hg u.busyLevel a)
  | @start u hu ho o p hne hp =>
    rw [← State.settle_start u o hne]
    exact settle_of_goesOn (s := u.start o p) (goesOn_of_startedProg hp (hs.idle_phase ho))
  | answer ho hprog hphase l htrace => exact ⟨hprog ▸ hg, .inl hphase⟩

end Sys2Proof.Machine
end

section
/-! Where the watchdog is fed: after the poll wait of a busy wait and after a sleep hold, in the trace and in
what the program in flight will add to it (42_sequencer.md R176, R186, 60_exceptions.md R284). -/

namespace Sys2Proof.Machine

/-! ### Feeds along a list of events -/

/-- The event may come next, when `before` is what came last. -/
def feedAllowed (before : Option Event) (e : Event) : Bool := e != .feed || before.any feedableWait

/-- What came last after a list of events. -/
def lastEvent (before : Option Event) (es : List Event) : Option Event :=
  es.foldl (fun _ e => some e) before

theorem feedsFollowWaits_cons (before : Option Event) (e : Event) (es : List Event) :
    feedsFollowWaits before (e :: es) = (feedAllowed before e && feedsFollowWaits (some e) es) := by
  cases e with
  | feed => cases before <;> rfl
  | _ => rfl

theorem feedsFollowWaits_append (before : Option Event) (xs ys : List Event) :
    feedsFollowWaits before (xs ++ ys) =
      (feedsFollowWaits before xs && feedsFollowWaits (lastEvent before xs) ys) := by
  induction xs generalizing before with
  | nil => rfl
  | cons e xs ih =>
    rw [List.cons_append, feedsFollowWaits_cons, feedsFollowWaits_cons, ih, Bool.and_assoc]
    rfl

/-- Events with no feed among them may come after anything. -/
theorem feedsFollowWaits_of_not_mem {es : List Event} (h : .feed ∉ es) (before : Option Event) :
    feedsFollowWaits before es = true := by
  induction es generalizing before with
  | nil => rfl
  | cons e es ih =>
    obtain ⟨he, hes⟩ := List.ne_and_not_mem_of_not_mem_cons h
    rw [feedsFollowWaits_cons, ih hes, feedAllowed, bne_iff_ne.mpr he.symm]
    rfl

/-! ### The programs -/

/-- No low sample is what the empty script says. -/
theorem progEvents_replicate_zero (p : Prog) (n : Nat) :
    progEvents p (List.replicate n 0) = progEvents p [] := by
  induction p generalizing n with
  | nil => rfl
  | cons x p ih =>
    obtain ⟨ph, a⟩ := x
    cases a with
    | waitBusy =>
      cases n with
      | zero => rfl
      | succ n => exact congrArg (busyWaitEvents 0 ++ ·) (ih n)
    | clearDirty => exact ih n
    | _ => exact congrArg (_ :: ·) (ih n)

theorem feed_not_mem_wakeEvents : .feed ∉ wakeEvents 0 := by
  simp [wakeEvents, blockEvents, busyWaitEvents]

theorem feed_not_mem_transmitEvents (black red : List Byte) : .feed ∉ transmitEvents black red := by
  simp [transmitEvents]

/-- The three feeds of the sleep sequence come after its holds (42_sequencer.md R186). -/
theorem feedsFollowWaits_refreshAndSleep (before : Option Event) :
    feedsFollowWaits before (refreshAndSleepEvents 0 0) = true := by
  simp [refreshAndSleepEvents, sleepEvents, blockEvents, busyWaitEvents, feedsFollowWaits_cons, feedAllowed,
    feedableWait, Config.tHold, feedsFollowWaits]

/-- Events with no feed, then the refresh and sleep sequences. -/
theorem feedsFollowWaits_append_refreshAndSleep {es : List Event} (h : .feed ∉ es)
    (before : Option Event) : feedsFollowWaits before (es ++ refreshAndSleepEvents 0 0) = true := by
  rw [feedsFollowWaits_append, feedsFollowWaits_of_not_mem h, feedsFollowWaits_refreshAndSleep]
  rfl

theorem feedsFollowWaits_updateProg (b r : List Byte) (before : Option Event) :
    feedsFollowWaits before (progEvents (updateProg b r) []) = true := by
  have hevents := progEvents_updateProg b r 0 0 0
  rw [← progEvents_replicate_zero _ 3]
  exact hevents ▸ feedsFollowWaits_append_refreshAndSleep
    (List.not_mem_append feed_not_mem_wakeEvents (feed_not_mem_transmitEvents _ _)) before

theorem feedsFollowWaits_blankProg (wakes : Bool) (before : Option Event) :
    feedsFollowWaits before (progEvents (blankProg wakes) []) = true := by
  have hevents := progEvents_blankProg wakes 0 0 0
  have hscript : (if wakes then [0, 0, 0] else [0, 0]) = List.replicate (if wakes then 3 else 2) 0 := by
    cases wakes <;> rfl
  rw [hscript, progEvents_replicate_zero] at hevents
  have hwake : .feed ∉ if wakes then wakeEvents 0 else [] := by
    cases wakes with
    | true => exact feed_not_mem_wakeEvents
    | false => exact List.not_mem_nil
  rw [hevents]
  exact feedsFollowWaits_append_refreshAndSleep
    (List.not_mem_append hwake (feed_not_mem_transmitEvents _ _)) before

theorem feedsFollowWaits_of_startedProg {ph : Phase} {p : Prog} (h : StartedProg ph p)
    (before : Option Event) : feedsFollowWaits before (progEvents p []) = true := by
  cases h with
  | init b r =>
    rw [progEvents_initProg, feedsFollowWaits_cons, feedsFollowWaits_updateProg]
    rfl
  | update b r _ => exact feedsFollowWaits_updateProg b r before
  | refresh _ => exact feedsFollowWaits_of_not_mem (es := [.sample .high, .cmd 0x12]) (by simp) before
  | blank wakes _ => exact feedsFollowWaits_blankProg wakes before

/-! ### One step -/

/-- A micro-action adds its event and leaves a program whose feeds still follow waits; a low sample puts a
poll wait before the feed it adds. -/
theorem feedsFollowWaits_microRest {before : Option Event} {ph : Phase} {a : MicroAction} {rest : Prog}
    (h : feedsFollowWaits before (progEvents ((ph, a) :: rest) []) = true) (l : Level) :
    feedsFollowWaits before (microEvents l a ++ progEvents (microRest l ph a rest) []) = true := by
  by_cases hlow : a = .waitBusy ∧ l = .low
  · obtain ⟨rfl, rfl⟩ := hlow
    simpa [microRest, progEvents, busyWaitEvents, feedsFollowWaits_cons, feedAllowed, feedableWait] using h
  · rw [microRest, if_neg hlow]
    cases a with
    | waitBusy =>
      cases l with
      | low => exact absurd ⟨rfl, rfl⟩ hlow
      | high => exact h
    | _ => exact h

theorem afterMicro_settle_events (s : State) (ph : Phase) (a : MicroAction) (rest : Prog) :
    (s.afterMicro ph a rest).settle.events = s.events ++ microEvents s.busyLevel a := by
  rw [State.events, State.settle_trace]
  cases a <;> simp [State.afterMicro, State.events]

/-- Settles O55: a step moves the head's event from the program to the trace; a program is started, and BUSY
sampled, only where no program is left. -/
theorem feedsFollowWaitsKept : Obligations.FeedsFollowWaitsKept := by
  intro s t hs hfeeds h
  cases step_sequencerEffect h with
  | same hsame => rwa [State.events, hsame.trace_eq, hsame.prog_eq]
  | @micro u ph a rest hu hp =>
    have hevents : u.events = s.events := congrArg List.reverse hu.trace_eq
    rw [hp, feedsFollowWaits_append, Bool.and_eq_true] at hfeeds
    obtain ⟨htrace, hprog⟩ := hfeeds
    rw [afterMicro_settle_events, State.settle_prog, hevents, List.append_assoc, feedsFollowWaits_append,
      htrace]
    exact feedsFollowWaits_microRest hprog u.busyLevel
  | @start u hu ho o p hne hp =>
    have hevents : (u.start o p).events = s.events := congrArg List.reverse hu.trace_eq
    rw [hs.idle_iff.mp ho, progEvents, List.append_nil] at hfeeds
    rw [hevents, feedsFollowWaits_append, hfeeds]
    exact feedsFollowWaits_of_startedProg hp _
  | answer ho hprog hphase l htrace =>
    have hevents : t.events = s.events ++ [.sample l] := by simp [State.events, htrace]
    rw [hs.idle_iff.mp ho, progEvents, List.append_nil] at hfeeds
    rw [hprog, hs.idle_iff.mp ho, hevents, progEvents, List.append_nil, feedsFollowWaits_append, hfeeds]
    rfl

end Sys2Proof.Machine
end

section
/-! The transcoder byte by byte: what each bit of a spread nibble is, the nibble read back from the odd bits,
and where the bytes of the two payloads stand (43_transcoder.md R220 to R225, R228). -/

namespace Sys2Proof.Machine

/-! ### One nibble -/

/-- Both bits of the pair at `j` are bit `j` of the nibble (43_transcoder.md R220). -/
theorem spread_getLsbD (n : BitVec 4) {j : Nat} (hj : j < 4) :
    (spread n).getLsbD (2 * j + 1) = n.getLsbD j ∧ (spread n).getLsbD (2 * j) = n.getLsbD j := by
  revert n j
  decide

/-- The odd bits of a byte, as a nibble: one half of `collapse` (43_transcoder.md R228). -/
def oddBits (v : Byte) : BitVec 4 :=
  BitVec.ofBool (v.getLsbD 7) ++ BitVec.ofBool (v.getLsbD 5) ++
  BitVec.ofBool (v.getLsbD 3) ++ BitVec.ofBool (v.getLsbD 1)

theorem oddBits_getLsbD (v : Byte) {j : Nat} (hj : j < 4) :
    (oddBits v).getLsbD j = v.getLsbD (2 * j + 1) := by
  rw [oddBits, BitVec.getLsbD_append, BitVec.getLsbD_append, BitVec.getLsbD_append]
  interval_cases j <;> simp

theorem collapse_eq_oddBits (hi lo : Byte) : collapse hi lo = oddBits hi ++ oddBits lo := by
  refine BitVec.eq_of_getLsbD_eq fun i hbit => ?_
  simp only [collapse, oddBits, BitVec.getLsbD_append]
  interval_cases i <;> simp

theorem oddBits_spread (n : BitVec 4) : oddBits (spread n) = n :=
  BitVec.eq_of_getLsbD_eq fun _ hj => (oddBits_getLsbD _ hj).trans (spread_getLsbD n hj).1

/-- The aligned bit pairs of a byte are `00` or `11` (43_transcoder.md R228). -/
def EqualPairs (v : Byte) : Prop := ∀ j < 4, v.getLsbD (2 * j + 1) = v.getLsbD (2 * j)

theorem equalPairs_spread (n : BitVec 4) : EqualPairs (spread n) := fun _ hj =>
  (spread_getLsbD n hj).1.trans (spread_getLsbD n hj).2.symm

theorem spread_oddBits {v : Byte} (h : EqualPairs v) : spread (oddBits v) = v := by
  refine BitVec.eq_of_getLsbD_eq fun i hi => ?_
  have hj : i / 2 < 4 := by omega
  obtain ⟨hodd, heven⟩ := spread_getLsbD (oddBits v) hj
  rw [oddBits_getLsbD v hj] at hodd heven
  obtain heq | heq : i = 2 * (i / 2) ∨ i = 2 * (i / 2) + 1 := by omega
  · rw [heq, heven, h _ hj]
  · rw [heq, hodd]

theorem exists_spread_eq_iff (v : Byte) : (∃ n, spread n = v) ↔ EqualPairs v :=
  ⟨fun ⟨n, hn⟩ => hn ▸ equalPairs_spread n, fun h => ⟨oddBits v, spread_oddBits h⟩⟩

/-! ### One byte -/

/-- A bit above the low part of two joined words is a bit of the high part. -/
theorem getLsbD_append_add {n m : Nat} (x : BitVec n) (y : BitVec m) (k : Nat) :
    (x ++ y).getLsbD (m + k) = x.getLsbD k := by
  rw [BitVec.getLsbD_append, if_neg (Nat.not_lt.mpr (Nat.le_add_right m k)), Nat.add_sub_cancel_left]

theorem nibbles_append (b : Byte) : b.extractLsb' 4 4 ++ b.extractLsb' 0 4 = b :=
  (BitVec.extractLsb'_append_extractLsb'_eq_extractLsb' rfl).trans BitVec.extractLsb'_eq_self

/-- Bits `2i+1` and `2i` of `{hi, lo}` are bit `i` of the byte (43_transcoder.md R223). -/
theorem expand_getLsbD (b : Byte) {i : Nat} (hi : i < 8) :
    ((expand b).1 ++ (expand b).2).getLsbD (2 * i + 1) = b.getLsbD i ∧
      ((expand b).1 ++ (expand b).2).getLsbD (2 * i) = b.getLsbD i := by
  by_cases h : i < 4
  · have hodd : 2 * i + 1 < 8 := by omega
    have heven : 2 * i < 8 := by omega
    obtain ⟨hspread1, hspread0⟩ := spread_getLsbD (b.extractLsb' 0 4) h
    rw [BitVec.getLsbD_append, BitVec.getLsbD_append, if_pos hodd, if_pos heven]
    simp [expand, hspread1, hspread0, h]
  · obtain ⟨j, rfl⟩ := Nat.exists_eq_add_of_le (Nat.le_of_not_lt h)
    have hj : j < 4 := by omega
    have hodd : 2 * (4 + j) + 1 = 8 + (2 * j + 1) := by omega
    have heven : 2 * (4 + j) = 8 + 2 * j := by omega
    obtain ⟨hspread1, hspread0⟩ := spread_getLsbD (b.extractLsb' 4 4) hj
    rw [hodd, heven, getLsbD_append_add, getLsbD_append_add, expand, hspread1, hspread0]
    simp [hj]

theorem collapse_expand (b : Byte) : collapse (expand b).1 (expand b).2 = b := by
  rw [collapse_eq_oddBits, expand, oddBits_spread, oddBits_spread, nibbles_append]

theorem expand_injective : Function.Injective expand := by
  intro b c h
  rw [← collapse_expand b, h, collapse_expand]

theorem expand_append (h l : BitVec 4) : expand (h ++ l : BitVec 8) = (spread h, spread l) := by
  rw [expand, BitVec.extractLsb'_append_eq_left, BitVec.extractLsb'_append_eq_right]

theorem exists_expand_fst_eq_iff (v : Byte) : (∃ b, (expand b).1 = v) ↔ EqualPairs v := by
  rw [← exists_spread_eq_iff]
  exact ⟨fun ⟨b, hb⟩ => ⟨_, hb⟩, fun ⟨n, hn⟩ => ⟨n ++ 0#4, by rw [expand_append, hn]⟩⟩

theorem exists_expand_snd_eq_iff (v : Byte) : (∃ b, (expand b).2 = v) ↔ EqualPairs v := by
  rw [← exists_spread_eq_iff]
  exact ⟨fun ⟨b, hb⟩ => ⟨_, hb⟩, fun ⟨n, hn⟩ => ⟨0#4 ++ n, by rw [expand_append, hn]⟩⟩

/-- Settles O35: each half of an expansion is a spread nibble, and the odd bits undo `spread`. -/
theorem expandProperties : Obligations.ExpandProperties := by
  refine ⟨fun b i hi => expand_getLsbD b hi, collapse_expand, fun _ _ h => expand_injective h,
    exists_expand_fst_eq_iff, exists_expand_snd_eq_iff, fun _ _ h => ?_, fun _ _ h => ?_⟩
  · rw [expand, expand, h]
  · rw [expand, expand, h]

/-! ### The payloads -/

theorem blackWire_cons (b : Byte) (fb : List Byte) :
    blackWire (b :: fb) = (expand b).1 :: (expand b).2 :: blackWire fb := rfl

/-- Each plane byte's two bytes stand at twice its index, the high nibble's first (43_transcoder.md R222). -/
theorem blackWire_getElem? (fb : List Byte) (i : Nat) (h : i < fb.length) :
    (blackWire fb)[2 * i]? = some (expand fb[i]).1 ∧
      (blackWire fb)[2 * i + 1]? = some (expand fb[i]).2 := by
  induction fb generalizing i with
  | nil => exact absurd h (Nat.not_lt_zero i)
  | cons b fb ih =>
    rw [blackWire_cons]
    cases i with
    | zero => exact ⟨rfl, rfl⟩
    | succ i => exact ih i (Nat.lt_of_succ_lt_succ h)

theorem blackWire_replicate_zero (n : Nat) :
    blackWire (List.replicate n 0x00) = List.replicate (2 * n) 0x00 := by
  induction n with
  | zero => rfl
  | succ n ih => rw [List.replicate_succ, blackWire_cons, ih]; rfl

theorem Memory.bytes_nil : Memory.bytes [] = List.replicate Config.planeBytes 0x00 := by
  have hread : Memory.read [] = fun _ => 0x00 := rfl
  rw [Memory.bytes, hread, List.map_const', List.length_range]

/-- Settles O36, from the place of each plane byte's two bytes; an empty memory's bytes are all unlisted. -/
theorem blackPayloadLayout : Obligations.BlackPayloadLayout := by
  refine ⟨blackWire_length, blackWire_getElem?, fun m => ?_, fun b hb => ?_⟩
  · rw [blackWire_length, Memory.bytes_length, planeBytes_eq]
  · rw [Memory.bytes_nil, blackWire_replicate_zero] at hb
    exact List.eq_of_mem_replicate hb

/-- Settles O37: `redWire` keeps the plane's bytes, and the events of a transmission carry its payload as
given. -/
theorem redPayloadVerbatim : Obligations.RedPayloadVerbatim := by
  have hred (m : Memory) : redWire (Memory.bytes m) = (List.range 5000).map (Memory.read m) := by
    rw [redWire, Memory.bytes, planeBytes_eq]
  refine ⟨fun m => ⟨hred m, ?_⟩, fun black m => ?_⟩
  · rw [redWire, Memory.bytes_length, planeBytes_eq]
  · rw [hred, progEvents_transmit]

end Sys2Proof.Machine
end

section
/-! The host operations beside the accepted ones: how a request reaches its operation, the requests that wait
or are refused, and the dirty port (44_host_operations.md R240 to R242, R253, R255). -/

namespace Sys2Proof.Machine

/-! ### The request turn -/

/-- Settles O7: a request turn is a request step, and that runs what the code decodes to. -/
theorem stepRunsRequest : Obligations.StepRunsRequest := by
  intro s q turns i hh hi
  have hcode : decodeHost q = .ok i := hi
  exact (step_of_act hh).trans (requestStep_of_decode hcode _)

/-! ### Requests that are not accepted -/

theorem admission_held {s : State} (h : s.fault.isSome = true ∨ s.op.isSome = true) (q : BitVec 3) (n : Bool)
    (t : State) : s.admission q n t = s.hold q := by
  rcases s.admission_cases q n t with ⟨-, hheld⟩ | ⟨hf, ho, -⟩ | ⟨hf, ho, -⟩
  · exact hheld
  · simp [hf, ho] at h
  · simp [hf, ho] at h

theorem admission_beforeInit {s : State} (hf : s.fault = none) (ho : s.op = none)
    (hph : s.phase = .uninitialized) (q : BitVec 3) (t : State) :
    s.admission q true t = s.refuse .notInitialized := by
  rcases s.admission_cases q true t with ⟨h, -⟩ | ⟨-, -, -, -, hrefused⟩ | ⟨-, -, hinit, -⟩
  · simp [hf, ho] at h
  · exact hrefused
  · exact absurd hph (hinit rfl)

/-- Settles O15: each of the five is an admission under its own code, and rows 2 and 3 of R241 come before
anything that tells the five apart. -/
theorem requestHeld : Obligations.RequestHeld := by
  intro s h
  have held (q : BitVec 3) (n : Bool) (t : State) :
      Host.Outcome.next (φ := Fault) (ρ := Refusal) (s.admission q n t) = .next { s with pending := some q } :=
    congrArg Host.Outcome.next (admission_held h q n t)
  exact ⟨held 1 false _, held 2 true _, held 3 true _, held 4 true _, held 5 false _⟩

/-- Settles O16: the three operations that need an INIT before them share row 4 of R241. -/
theorem refusedBeforeInit : Obligations.RefusedBeforeInit := by
  intro s hf ho hph
  have refused (q : BitVec 3) (t : State) :
      Host.Outcome.next (φ := Fault) (ρ := Refusal) (s.admission q true t) = .next { s with refused := true } :=
    congrArg Host.Outcome.next (admission_beforeInit hf ho hph q t)
  exact ⟨refused 2 _, refused 3 _, refused 4 _⟩

/-! ### The dirty port -/

theorem State.dirtyPort_idle {s : State} (ho : s.op = none) (v : Bool) : s.dirtyPort v = s.writeDirty v := by
  rcases s.dirtyPort_cases v with ⟨hop, -⟩ | ⟨-, hwritten⟩
  · simp [ho] at hop
  · exact hwritten

/-- Settles O43: an idle write is not a race, and a read looks at nothing but the flag. -/
theorem dirtyPort : Obligations.DirtyPort := by
  intro s v turns
  refine ⟨fun ho hh => ?_, fun hh => step_of_port hh rfl⟩
  have hwritten := State.dirtyPort_idle (s := { s with host := turns }) ho v
  exact step_of_port hh (congrArg Host.Outcome.next hwritten)

end Sys2Proof.Machine
end

section
/-! Misuse and its mark: the one fault, the writes that raise it, and what a faulted block leaves alone
(60_exceptions.md R271, R273). -/

namespace Sys2Proof.Machine

/-! ### The race -/

/-- There is one fault, so the race records it whether or not one stands already (60_exceptions.md R271). -/
theorem State.raiseFault_hostRace (s : State) :
    s.raiseFault .hostRace = { s with fault := some .hostRace } := by
  cases hf : s.fault with
  | none => simp [State.raiseFault, hf]
  | some r => cases r; simp [State.raiseFault, hf]

theorem State.fbw_race {s : State} {p : Plane} {i : Nat} (v : Byte) (ho : s.op.isSome = true)
    (hi : i < Config.planeBytes) : s.fbw (.plane p) i v = { s with fault := some .hostRace } := by
  have hat : framebufferAt (.plane p) i = some p := framebufferAt_eq_some.mpr ⟨rfl, hi⟩
  simp [State.fbw, hat, ho, State.raiseFault_hostRace]

theorem State.dirtyPort_race {s : State} (ho : s.op.isSome = true) (v : Bool) :
    s.dirtyPort v = { s with fault := some .hostRace } := by
  rcases s.dirtyPort_cases v with ⟨-, hrace⟩ | ⟨hidle, -⟩
  · rw [hrace, State.raiseFault_hostRace]
  · simp [hidle] at ho

/-- Settles O42: on the host's turn either write meets the race and does not happen. -/
theorem hostRaceFaults : Obligations.HostRaceFaults := by
  intro s p i v d turns ho hi
  have hi : i < Config.planeBytes := planeBytes_eq ▸ hi
  have hop : (State.op { s with host := turns }).isSome = true := ho
  exact ⟨fun hh => step_of_port hh (congrArg Host.Outcome.next (State.fbw_race v hop hi)),
    fun hh => step_of_port hh (congrArg Host.Outcome.next (State.dirtyPort_race hop d))⟩

/-! ### A faulted block -/

/-- On a faulted block a request waits or is refused; it starts nothing and BUSY is not answered. -/
theorem RequestEffect.sameSequencer_of_faulted {s t : State} {r : Fault} (h : RequestEffect s t)
    (hf : s.fault = some r) : SameSequencer s t := by
  cases h with
  | refuse reason => exact .refuse s reason
  | hold q _ => exact .withPending s (some q)
  | start _ _ hnone _ _ _ => simp [hf] at hnone
  | answer hnone _ => simp [hf] at hnone

theorem RequestEffect.dirty_eq {s t : State} (h : RequestEffect s t) : t.dirty = s.dirty := by
  cases h <;> rfl

/-- Only a dirty write on an idle block changes the flag from a port (44_host_operations.md R255). -/
theorem PortEffect.dirty_eq {s t : State} (h : PortEffect s t) (ho : s.op.isSome = true) :
    t.dirty = s.dirty := by
  cases h with
  | writeDirty _ hidle => simp [hidle] at ho
  | writePlane p _ _ _ _ => exact State.setPlane_dirty _ p _
  | _ => rfl

/-- What a step of a faulted state can do: the block passes, or the host acts on a frozen sequencer. -/
theorem step_frozen {s t : State} {r : Fault} (hf : s.fault = some r) (h : step s = .next t) :
    SameSequencer s t ∧ (s.op.isSome = true → t.dirty = s.dirty) := by
  rcases step_effect h with ⟨turns, hb, -⟩ | ⟨q, turns, -, hr⟩ | ⟨a, turns, -, hp⟩
  · rw [step_of_faulted hb hf] at h
    injection h with h
    subst h
    exact ⟨.withHost s turns, fun _ => rfl⟩
  · exact ⟨(SameSequencer.withHost s turns).trans (hr.sameSequencer_of_faulted hf), fun _ => hr.dirty_eq⟩
  · exact ⟨(SameSequencer.withHost s turns).trans hp.sameSequencer, hp.dirty_eq⟩

/-- Settles O59: the sequencer is frozen, the mark stays by `marksNeverCleared`, and the planes of an
operation in flight by `planesKeptInFlight`. -/
theorem faultFreezes : Obligations.FaultFreezes := by
  intro s t r hf h
  obtain ⟨hsame, hdirty⟩ := step_frozen hf h
  obtain ⟨hfault, -⟩ := marksNeverCleared s t h
  obtain ⟨hplanes, -⟩ := planesKeptInFlight
  refine ⟨hsame.prog_eq, hsame.op_eq, hsame.phase_eq, hsame.trace_eq, hsame.resp_eq, hfault r hf,
    hsame.rst_eq, hsame.dc_eq, fun ho => ?_⟩
  obtain ⟨hblack, hred⟩ := hplanes s t ho h
  exact ⟨hblack, hred, hdirty ho⟩

end Sys2Proof.Machine
end
